-- ==== Sys2Proof/Word.lean ====
section
/-! DEFINITION. The word types of the block: a 32-bit bus word, a byte and a 21-bit flash byte address (R7, R90). -/

namespace Sys2Proof

/-- A 32-bit command or status word, and every 32-bit operand (R7, R21). -/
abbrev Word := BitVec 32

/-- A data byte (R92). -/
abbrev Byte := BitVec 8

/-- A flash byte address as a command word carries it (R91). -/
abbrev FlashAddr := BitVec 21

end Sys2Proof
end

