-- ==== Sys2Proof/Syntax.lean ====
section
/-! DEFINITION. The syntax of the two encodings that ask for something: the command word (format CMD32) and the request
(format REQ), one constructor of `Instr` per row of the opcode table, and the notation for bus accesses (R102). -/

namespace Sys2Proof

/-- The instructions: eight command words of the bridge (R94; decoding keeps the whole triple of R99) and eight request
kinds of the block (R36, R100, R101). -/
inductive Instr where
  /-- READ, operation 0 (R130). -/
  | read (address : FlashAddr) (data : Byte)
  /-- WRITE, operation 1: commit the page buffer (R131). -/
  | write (address : FlashAddr) (data : Byte)
  /-- SECTOR_ERASE, operation 2 (R132). -/
  | sectorErase (address : FlashAddr) (data : Byte)
  /-- READ_STATUS, operation 3 (R98, R133). -/
  | readStatus (address : FlashAddr) (data : Byte)
  /-- PAGE_PROGRAM, operation 4: load one byte (R134). -/
  | pageProgram (address : FlashAddr) (data : Byte)
  /-- Reserved operation 5 (R97). -/
  | reserved5 (address : FlashAddr) (data : Byte)
  /-- Reserved operation 6 (R97). -/
  | reserved6 (address : FlashAddr) (data : Byte)
  /-- Reserved operation 7 (R97). -/
  | reserved7 (address : FlashAddr) (data : Byte)
  /-- Request kind 0, AWAIT_NOT_BUSY (R155). -/
  | awaitNotBusy (timeoutMs : Word)
  /-- Request kind 1, READ_BYTES (R180). -/
  | readBytes (addr count : Word) (reverse : Bool)
  /-- Request kind 2, ERASE (R201). -/
  | erase (addr size : Word)
  /-- Request kind 3, PAGE_PROGRAM (R207). `len` is the declared length (R38). -/
  | pageProgramReq (addr len : Word) (data : List Byte)
  /-- Request kind 4, WRITE (R213). `len` is the declared length (R38). -/
  | writeReq (addr len : Word) (data : List Byte) (reverse : Bool)
  /-- Reserved request kind 5 (R101). -/
  | reqReserved5
  /-- Reserved request kind 6 (R101). -/
  | reqReserved6
  /-- Reserved request kind 7 (R101). -/
  | reqReserved7
  deriving DecidableEq, Repr

/-- A request as it stands in the host's port (R36): the kind and every operand field. `len` is the declared count, size or
data length. A kind reads its own fields alone. -/
structure Request where
  kind : BitVec 3
  addr : Word
  len : Word
  reverse : Bool
  timeoutMs : Word
  data : List Byte
  deriving DecidableEq, Repr

/-- What is decoded: a command word or a request record (R90, R100). -/
inductive Packet where
  | cmd (w : Word)
  | req (r : Request)
  deriving DecidableEq, Repr

/-- One observable event of the block (R102): a write of a command word and a read of a status word, each at a bus address,
and a reading of the time base in milliseconds. -/
inductive BusEvent where
  | regWrite (addr : Nat) (v : Word)
  | regRead (addr : Nat) (v : Word)
  | time (t : Nat)
  deriving DecidableEq, Repr

/-- Whether an event is a bridge access. -/
def BusEvent.isAccess : BusEvent → Bool
  | .regWrite _ _ => true
  | .regRead _ _ => true
  | .time _ => false

end Sys2Proof
end

