-- ==== Sys2Proof/Config.lean ====
section
/-! DEFINITION. The implementation parameters of R6, each at the document's value, the OPEN parameters (opaque constants),
and the free values of the environment (opaque functions: nothing constrains them). -/

namespace Sys2Proof.Config

/-- ADDR_BITS (R6). -/
def addrBits : Nat := 21

/-- FLASH_BYTES (R6). -/
def flashBytes : Nat := 2097152

/-- ADDR_MASK (R6, R91). -/
def addrMask : Word := 0x1FFFFF#32

/-- SECTOR_BYTES (R6). -/
def sectorBytes : Nat := 65536

/-- PAGE_BYTES (R6). -/
def pageBytes : Nat := 256

/-- MAX_WRITE_LEN (R6). -/
def maxWriteLen : Nat := 65536

/-- T_TOGGLE_MS (R6). -/
def tToggleMs : Nat := 100

/-- T_READ_BUSY_MS (R6). -/
def tReadBusyMs : Nat := 100

/-- T_ERASE_MS (R6). -/
def tEraseMs : Nat := 2500

/-- T_PROGRAM_MS (R6). -/
def tProgramMs : Nat := 2500

/-- T_PREWAIT_MS (R6, R240). -/
def tPrewaitMs : Word := 2500#32

/-- REG_OFFSET (R6, R28). -/
def regOffset : Nat := 0x8

/-- MAX_RPD_BYTES (R6, R242). -/
def maxRpdBytes : Nat := 950005

/-- The host splits images into chunks of this size (R241). -/
def chunkBytes : Nat := 65536

/-- FACTORY_BASE (R6, R70). -/
def factoryBase : Word := 0x0#32

/-- APP_BASE (R6, R70). -/
def appBase : Word := 0xF0000#32

/-- The erased byte of the reference bridge, and what an unlisted address of its flash reads as (R140). The open parameter
ERASED_BYTE of other bridges is the contract's own field, any value (R138, U7). Log 3. -/
def erasedByte : Byte := 0xFF#8

/-- ASMI_BASE in words: not in the source (R62). Log 16. -/
opaque asmiBaseWords : Nat

/-- ASMI_BASE, an open parameter, a multiple of 4 (R62, R63). -/
def asmiBase : Nat := 4 * asmiBaseWords

/-- The bridge register's bus address (R28, R63). DESIGN CHOICE: the source gives the host bus address no width (R62); it is an
unbounded natural, so the sum never wraps. Log 16. -/
def regAddr : Nat := asmiBase + regOffset

/-- How far MAX_XFER exceeds its least value: not in the source (R6). Log 10. -/
opaque xferRoom : Nat

/-- MAX_XFER, an open parameter of at least 65,536 (R6, R38). Irreducible, so that no proof counts it out. -/
@[irreducible] def maxXfer : Nat := xferRoom + 65536

/-- Whether a count or data length is at most MAX_XFER (R38). The first test decides every length the parameter must allow
without asking for its open value. -/
def fitsXfer (n : Nat) : Bool := decide (n ≤ 65536) || decide (n ≤ maxXfer)

/-- FREE VALUE (log 2): the status word the unconstrained bridge answers a read with (R136, R65). Its argument is every event
so far, so the answer may depend on all the bridge has seen. -/
opaque bridgeSample : List BusEvent → Word

/-- FREE VALUE (log 6): by how many milliseconds the time base has advanced since its last reading (R150). -/
opaque timeStep : List BusEvent → Nat

/-- FREE VALUE (log 24): byte `j` of the `n`-th run of flash bytes whose contents the spec leaves at any value (U9, U10). -/
opaque flashDraw : Nat → Nat → Byte

/-- FREE VALUE (log 9): what acceptance leaves in `r.addr` for a kind without an address operand (R38). -/
opaque absentAddr : Nat → Word

/-- FREE VALUE (log 9): what acceptance leaves in `r.len` for a kind without a length operand (R38). -/
opaque absentLen : Nat → Word

/-- FREE VALUE (log 9): what acceptance leaves in `r.tmo` for a kind without a timeout operand (R38). -/
opaque absentTimeout : Nat → Word

/-- FREE VALUE (log 9): what acceptance leaves in `r.rev` for a kind without a reverse operand (R38). -/
opaque absentReverse : Nat → Bool

/-- FREE VALUE (log 9): before the cut to MAX_XFER, what acceptance leaves in `r.wdata` for a kind without data (R38). -/
opaque absentBytes : Nat → List Byte

end Sys2Proof.Config
end

