-- ==== Sys2Proof/WellFormed.lean ====
section
/-! DEFINITION. Well-formed instructions: the requests the block accepts (R38), and the command words the block can emit
(R99). -/

namespace Sys2Proof

/-- The acceptance conditions of R38 on a request's operands, with the capacity test as an argument: a defined kind, a count or
data length that fits, and a declared length equal to the data's. Every command word is well-formed (R99). -/
def Instr.wfWithin (fits : Nat → Bool) : Instr → Bool
  | .read _ _ => true
  | .write _ _ => true
  | .sectorErase _ _ => true
  | .readStatus _ _ => true
  | .pageProgram _ _ => true
  | .reserved5 _ _ => true
  | .reserved6 _ _ => true
  | .reserved7 _ _ => true
  | .awaitNotBusy _ => true
  | .readBytes _ count _ => fits count.toNat
  | .erase _ _ => true
  | .pageProgramReq _ len data => decide (len.toNat = data.length) && fits data.length
  | .writeReq _ len data _ => decide (len.toNat = data.length) && fits data.length
  | .reqReserved5 => false
  | .reqReserved6 => false
  | .reqReserved7 => false

/-- Well-formed for this block's MAX_XFER (R38). -/
def Instr.wf (i : Instr) : Bool := i.wfWithin Config.fitsXfer

/-- The command words the block can emit (R99): a READ, WRITE or SECTOR_ERASE with a zero data field, the last with a
sector-aligned address, and a PAGE_PROGRAM load with a zero address field. -/
def Instr.emittable : Instr → Bool
  | .read _ data => data == 0#8
  | .write _ data => data == 0#8
  | .sectorErase address data => data == 0#8 && address.toNat % Config.sectorBytes == 0
  | .readStatus _ _ => false
  | .pageProgram address _ => address == 0#21
  | .reserved5 _ _ => false
  | .reserved6 _ _ => false
  | .reserved7 _ _ => false
  | .awaitNotBusy _ => false
  | .readBytes _ _ _ => false
  | .erase _ _ => false
  | .pageProgramReq _ _ _ => false
  | .writeReq _ _ _ _ => false
  | .reqReserved5 => false
  | .reqReserved6 => false
  | .reqReserved7 => false

end Sys2Proof
end

