-- ==== Sys2Proof/Decode.lean ====
section
/-! DEFINITION. Decoding of command words and requests, total (R99, R100), and the encoder from the same tables. -/

namespace Sys2Proof

/-- The operation field of a command word, bits 31:29 (R90). -/
def opField (v : Word) : BitVec 3 := v.extractLsb' 29 3

/-- The address field of a command word, bits 28:8 (R90, R91). -/
def flashAddr (v : Word) : FlashAddr := v.extractLsb' 8 21

/-- The data field of a command word, bits 7:0 (R90). -/
def dataField (v : Word) : Byte := v.extractLsb' 0 8

/-- `cmd(op, a, d)`, the function the block builds every command word with (R90); bits 31:21 of `a` are discarded (R91). -/
def cmd (op : BitVec 3) (a : Word) (d : Byte) : Word :=
  (op.setWidth 32 <<< 29) ||| ((a &&& Config.addrMask) <<< 8) ||| d.setWidth 32

/-- Decode a command word by its operation field alone (R94, R99). -/
def decodeCmd (v : Word) : Instr :=
  match (opField v).toNat with
  | 0 => .read (flashAddr v) (dataField v)
  | 1 => .write (flashAddr v) (dataField v)
  | 2 => .sectorErase (flashAddr v) (dataField v)
  | 3 => .readStatus (flashAddr v) (dataField v)
  | 4 => .pageProgram (flashAddr v) (dataField v)
  | 5 => .reserved5 (flashAddr v) (dataField v)
  | 6 => .reserved6 (flashAddr v) (dataField v)
  | _ => .reserved7 (flashAddr v) (dataField v)

/-- Decode a request by its kind (R100, R101); a kind takes the operands R36 lists for it. -/
def decodeReq (r : Request) : Instr :=
  match r.kind.toNat with
  | 0 => .awaitNotBusy r.timeoutMs
  | 1 => .readBytes r.addr r.len r.reverse
  | 2 => .erase r.addr r.len
  | 3 => .pageProgramReq r.addr r.len r.data
  | 4 => .writeReq r.addr r.len r.data r.reverse
  | 5 => .reqReserved5
  | 6 => .reqReserved6
  | _ => .reqReserved7

/-- Decode what stands in the bridge's write register or in the request port. -/
def decode : Packet → Instr
  | .cmd w => decodeCmd w
  | .req r => decodeReq r

/-- A command word of a decoded triple (R90, R99). -/
def cmdPacket (op : BitVec 3) (a : FlashAddr) (d : Byte) : Packet := .cmd (cmd op (a.setWidth 32) d)

/-- A request record of the given kind with every operand field zero. -/
def emptyReq (kind : BitVec 3) : Request :=
  { kind := kind, addr := 0#32, len := 0#32, reverse := false, timeoutMs := 0#32, data := [] }

/-- Encode an instruction: the command word of R90, or the request record of R36 with the fields the kind does not have at
zero. -/
def encode : Instr → Packet
  | .read a d => cmdPacket 0#3 a d
  | .write a d => cmdPacket 1#3 a d
  | .sectorErase a d => cmdPacket 2#3 a d
  | .readStatus a d => cmdPacket 3#3 a d
  | .pageProgram a d => cmdPacket 4#3 a d
  | .reserved5 a d => cmdPacket 5#3 a d
  | .reserved6 a d => cmdPacket 6#3 a d
  | .reserved7 a d => cmdPacket 7#3 a d
  | .awaitNotBusy t => .req { emptyReq 0#3 with timeoutMs := t }
  | .readBytes addr count rev => .req { emptyReq 1#3 with addr := addr, len := count, reverse := rev }
  | .erase addr size => .req { emptyReq 2#3 with addr := addr, len := size }
  | .pageProgramReq addr len data => .req { emptyReq 3#3 with addr := addr, len := len, data := data }
  | .writeReq addr len data rev =>
    .req { emptyReq 4#3 with addr := addr, len := len, data := data, reverse := rev }
  | .reqReserved5 => .req (emptyReq 5#3)
  | .reqReserved6 => .req (emptyReq 6#3)
  | .reqReserved7 => .req (emptyReq 7#3)

/-- The packet the opcode table's bits `w` of `nbits` bits stand for: 32 bits are a command word; up to 8 bits are a request
whose kind is bits 2:0 and whose operands are zero; other sizes are no packet of this hardware. Log 7. -/
def packetOfTableWord (nbits w : Nat) : Option Packet :=
  if nbits = 32 then some (.cmd (BitVec.ofNat 32 w))
  else if 0 < nbits ∧ nbits ≤ 8 then some (.req (emptyReq (BitVec.ofNat 3 w)))
  else none

/-- The instruction the decoder reads from the opcode table's bits. -/
def decodeTableWord (nbits w : Nat) : Option Instr :=
  (packetOfTableWord nbits w).map decode

end Sys2Proof
end

