-- ==== Sys2Proof/Machine/State.lean ====
section
/-! DEFINITION. The state of the block (R21) and of its environment (R5) as plain data, the reset state (R290), and the
reasons a step can stop (R274). -/

namespace Sys2Proof.Machine

/-- Flash contents: strictly rising addresses, and no entry equal to `Config.erasedByte`, which an unlisted address reads as
(R140; log 3). -/
abbrev Memory := List Host.Cell

/-- The twelve sequencer states (R22). -/
inductive Seq where
  | idle | awPoll | rdSeed | rdCmd | rdToggle | rdBusy | erCmd | erBusy | ppLoad | ppCommit | ppBusy | respond
  deriving DecidableEq, Repr

/-- The 4-bit code of a sequencer state (R22). -/
def Seq.code : Seq → BitVec 4
  | .idle => 0#4
  | .awPoll => 1#4
  | .rdSeed => 2#4
  | .rdCmd => 3#4
  | .rdToggle => 4#4
  | .rdBusy => 5#4
  | .erCmd => 6#4
  | .erBusy => 7#4
  | .ppLoad => 8#4
  | .ppCommit => 9#4
  | .ppBusy => 10#4
  | .respond => 11#4

/-- Response codes (R260). -/
inductive RspCode where
  | ok | alignmentError | timeout
  deriving DecidableEq, Repr

/-- The 2-bit value of a response code (R260). -/
def RspCode.value : RspCode → BitVec 2
  | .ok => 0#2
  | .alignmentError => 1#2
  | .timeout => 2#2

/-- The wait kinds of a Timeout (R261). -/
inductive Wait where
  | await | toggle | readBusy | eraseBusy | programBusy
  deriving DecidableEq, Repr

/-- The 3-bit value of a wait kind (R261). -/
def Wait.value : Wait → BitVec 3
  | .await => 0#3
  | .toggle => 1#3
  | .readBusy => 2#3
  | .eraseBusy => 3#3
  | .programBusy => 4#3

/-- The causes of an AlignmentError (R261). -/
inductive Cause where
  | eraseAddrUnaligned | writeAddrUnaligned | writeLenTooLarge
  deriving DecidableEq, Repr

/-- The 2-bit value of an alignment cause (R261). -/
def Cause.value : Cause → BitVec 2
  | .eraseAddrUnaligned => 0#2
  | .writeAddrUnaligned => 1#2
  | .writeLenTooLarge => 2#2

/-- The `info` record of a response (R37, R261). -/
inductive Info where
  | empty
  | timeout (wait : Wait) (elapsedMs : Nat) (pos : Word)
  | alignment (cause : Cause) (addr len : Word)
  deriving DecidableEq, Repr

/-- A response (R37). -/
structure Response where
  code : RspCode
  info : Info
  data : List Byte
  diagIe : Bool
  diagIw : Bool
  deriving DecidableEq, Repr

/-- What stands behind the bridge register: the unconstrained oracle (R136), the reference bridge (R140), its two
fault-injection variants (R143), or a bus whose accesses never complete (R274). -/
inductive BridgeKind where
  | oracle | reference | stuckBusy | constantToggle | noAnswer
  deriving DecidableEq, Repr

/-- The bridge side. `flash`, `tog`, `dat` and `pbuf` are the reference bridge's state (R30, R140); the oracle hides its own
in its draws. `flashDraws` is the model's own counter of the free values `Config.flashDraw` used up (log 24). `posted` is a
command word on the bus that has not been delivered yet (R28, R307; log 8). `script` lists status words the next reads return,
whatever the kind (log 17). -/
structure Bridge where
  kind : BridgeKind
  flash : Memory
  tog : Bool
  dat : Byte
  pbuf : List Byte
  flashDraws : Nat
  posted : Option Word
  script : List Word
  deriving DecidableEq, Repr

/-- The time base (R150): the last value read, and the increments the next readings take before the free ones (log 17). -/
structure Clock where
  last : Nat
  script : List Nat
  deriving DecidableEq, Repr

/-- The host macros (R103). -/
inductive HostOp where
  | prewait | writeRpd | readRpd
  deriving DecidableEq, Repr

/-- The base image a host operation works on (R6 BASE_OFFSET). -/
inductive Image where
  | factory | application
  deriving DecidableEq, Repr

/-- A verify mismatch (R244): file offset, flash address, expected byte, actual byte. -/
structure Mismatch where
  fileOffset : Nat
  flashAddress : Nat
  expected : Byte
  actual : Byte
  deriving DecidableEq, Repr

/-- Why a host operation FAILED (R242 to R244, R248). -/
inductive HostFailure where
  | capacity
  | io
  | verifyMismatch (records : List Mismatch)
  | response (r : Response)
  deriving DecidableEq, Repr

/-- Where a host operation stands (R240 to R248). -/
inductive HostPhase where
  | idle | start | prewaiting | chunk | writing | readback | verifying | reading | done
  | failed (why : HostFailure)
  deriving DecidableEq, Repr

/-- A line of the host's standard output (R245, R246). -/
inductive HostLine where
  | rpdBytesWritten (n : Nat)
  | verifyOk
  | rpdBytesRead (n : Nat)
  deriving DecidableEq, Repr

/-- The host agent (R5, R240 to R251). `port` holds the request it presents, `takes` says whether it takes a pending response,
`resetLine` whether it resets the block before the next step (R291). -/
structure HostState where
  port : Option Request
  takes : Bool
  resetLine : Bool
  last : Option Response
  diagLog : List (Bool × Bool)
  session : Bool
  op : HostOp
  phase : HostPhase
  image : Image
  verify : Bool
  file : List Byte
  fileLen : Nat
  pos : Nat
  dest : List Byte
  destRoom : Option Nat
  out : List HostLine
  deriving DecidableEq, Repr

/-- The machine's state: the block's registers under the names of R21, then the model's own free-value counter `draws`
(log 9), the bridge, the time base, the trace of every event so far, newest first (log 5), and the host. -/
structure State where
  seq : BitVec 4
  kind : BitVec 3
  addr : Word
  len : Word
  rev : Bool
  tmo : Word
  wdata : List Byte
  rdata : List Byte
  i : Word
  k : Word
  nblk : Word
  pbase : Word
  plen : BitVec 9
  j : BitVec 9
  t0 : Nat
  latched : Byte
  lastToggle : Bool
  toggleSeeded : Bool
  diagIe : Bool
  diagIw : Bool
  rsp : Option Response
  draws : Nat
  bridge : Bridge
  clock : Clock
  trace : List BusEvent
  host : HostState
  deriving DecidableEq, Repr

/-- Why the machine stops with a fault. -/
inductive Fault where
  /-- `seq` holds one of the unused codes 12 to 15 (R23, R274). Raised by `step`. Safe: no rule enters them. -/
  | unusedSeq (code : BitVec 4)
  /-- A bridge access that never completes (R274): the block is stuck. Raised by every bus access of a bridge of kind
  `noAnswer`. Safe: the spec gives no step past it. -/
  | accessNeverCompletes
  /-- `PP_LOAD` indexes past the end of `r.wdata`. Raised by the load step. Safe: no run reaches it (log 14). -/
  | loadIndexOutOfData
  /-- The host takes a response in `RESPOND` and there is none. Raised by the take. Safe: no run reaches it (log 14). -/
  | noResponsePending
  deriving DecidableEq, Repr

/-- Why the machine gives an instruction no meaning. -/
inductive Refusal where
  /-- An instruction the model does not give a meaning yet. Raised by `exec`'s arms alone. Safe. -/
  | notModelled (mnemonic : String)
  /-- A request of kind 5, 6 or 7 (R38, R101). Raised by the meanings of the reserved kinds. Safe: no step in the spec. -/
  | reservedKind (kind : BitVec 3)
  /-- A count or data length above MAX_XFER (R38). Raised by READ_BYTES, PAGE_PROGRAM and WRITE. Safe. -/
  | overLong
  /-- A declared length that differs from the data's (R38). Raised by PAGE_PROGRAM and WRITE. Safe. -/
  | lengthMismatch
  /-- A request executed while `seq` is not IDLE (R38, R251). Raised by every defined request kind. Safe: the spec has no
  move for it. -/
  | notIdle
  deriving DecidableEq, Repr

/-- The bridge the machine starts with: the oracle, and the reference bridge's start values beside it (R29, R140; log 2). -/
def Bridge.start : Bridge :=
  { kind := .oracle, flash := [], tog := false, dat := 0#8, pbuf := [], flashDraws := 0, posted := none, script := [] }

/-- The host with nothing asked for (log 12). -/
def HostState.start : HostState :=
  { port := none, takes := true, resetLine := false, last := none, diagLog := [], session := false, op := .prewait,
    phase := .idle, image := .factory, verify := false, file := [], fileLen := 0, pos := 0, dest := [],
    destRoom := none, out := [] }

/-- The machine right after reset (R290). The registers R290 leaves unspecified hold zero: DESIGN CHOICE, log 1. -/
def State.reset : State :=
  { seq := Seq.idle.code, kind := 0#3, addr := 0#32, len := 0#32, rev := false, tmo := 0#32, wdata := [], rdata := [],
    i := 0#32, k := 0#32, nblk := 0#32, pbase := 0#32, plen := 0#9, j := 0#9, t0 := 0, latched := 0#8,
    lastToggle := false, toggleSeeded := false, diagIe := false, diagIw := false, rsp := none, draws := 0,
    bridge := Bridge.start, clock := { last := 0, script := [] }, trace := [], host := HostState.start }

end Sys2Proof.Machine
end

