-- ==== Sys2Proof/Machine/Operands.lean ====
section
/-! DEFINITION. Operand forms: the sequencer's state codes, the fields of a status word (R95), the bit-reversal ROM (R120),
the addresses of command words (R61, R91), and the erase and program geometry (R200). -/

namespace Sys2Proof.Machine

/-- The sequencer state of a 4-bit code; the codes 12 to 15 are none (R22, R23). -/
def Seq.ofCode (c : BitVec 4) : Option Seq :=
  match c.toNat with
  | 0 => some .idle
  | 1 => some .awPoll
  | 2 => some .rdSeed
  | 3 => some .rdCmd
  | 4 => some .rdToggle
  | 5 => some .rdBusy
  | 6 => some .erCmd
  | 7 => some .erBusy
  | 8 => some .ppLoad
  | 9 => some .ppCommit
  | 10 => some .ppBusy
  | 11 => some .respond
  | _ => none

/-- `data_valid_toggle`, bit 19 of a status word (R95). -/
def stToggle (v : Word) : Bool := v.getLsbD 19

/-- `illegal_erase`, bit 18 (R95). -/
def stIllegalErase (v : Word) : Bool := v.getLsbD 18

/-- `illegal_write`, bit 17 (R95). -/
def stIllegalWrite (v : Word) : Bool := v.getLsbD 17

/-- `busy`, bit 16 (R95). -/
def stBusy (v : Word) : Bool := v.getLsbD 16

/-- `status`, bits 15:8 (R95); no rule reads it (R96). -/
def stStatus (v : Word) : Byte := v.extractLsb' 8 8

/-- `data`, bits 7:0 (R95). -/
def stData (v : Word) : Byte := v.extractLsb' 0 8

/-- The status word of a bridge with these field values and every other bit zero (R141, R143). -/
def statusWord (toggle busy : Bool) (data : Byte) : Word :=
  ((BitVec.ofBool toggle).setWidth 32 <<< 19) ||| ((BitVec.ofBool busy).setWidth 32 <<< 16) ||| data.setWidth 32

/-- The bit-reversal ROM: bit `i` of `rom b` is bit `7 - i` of `b` (R120). -/
def rom (b : Byte) : Byte :=
  BitVec.ofBool (b.getLsbD 0) ++ BitVec.ofBool (b.getLsbD 1) ++ BitVec.ofBool (b.getLsbD 2) ++
    BitVec.ofBool (b.getLsbD 3) ++ BitVec.ofBool (b.getLsbD 4) ++ BitVec.ofBool (b.getLsbD 5) ++
    BitVec.ofBool (b.getLsbD 6) ++ BitVec.ofBool (b.getLsbD 7)

/-- A byte, through the ROM when the flag is set (R67, R123). -/
def romIf (rev : Bool) (b : Byte) : Byte := if rev then rom b else b

/-- Kind code of READ_BYTES and the other requests (R100). -/
def kindAwait : BitVec 3 := 0#3
/-- Kind code 1 (R100). -/
def kindReadBytes : BitVec 3 := 1#3
/-- Kind code 2 (R100). -/
def kindErase : BitVec 3 := 2#3
/-- Kind code 3 (R100). -/
def kindPageProgram : BitVec 3 := 3#3
/-- Kind code 4 (R100). -/
def kindWrite : BitVec 3 := 4#3

/-- Whether an address is a multiple of SECTOR_BYTES, on all its 32 bits (R68, R206). -/
def sectorAligned (a : Word) : Bool := a.toNat % Config.sectorBytes == 0

/-- `nblk(L) = ceil(L / 65536)` (R200). -/
def nblkOf (len : Word) : Word := BitVec.ofNat 32 ((len.toNat + 65535) / 65536)

/-- `plen = min(256, len - off)` for the page at offset `off` (R200, R204, R210). -/
def plenOf (len off : Word) : BitVec 9 := BitVec.ofNat 9 (min Config.pageBytes (len.toNat - off.toNat))

/-- The address operand of the READ command for byte `r.i` (R182); the sum wraps at 32 bits, and the command word keeps 21
of them (R61). -/
def State.readAddress (s : State) : Word := s.addr + s.i

/-- The address operand of the SECTOR_ERASE command of block `r.k` (R203). -/
def State.blockAddress (s : State) : Word := s.addr + 65536#32 * s.k

/-- The address operand of the commit of the current page (R209). -/
def State.commitAddress (s : State) : Word := s.addr + s.pbase

/-- The index in `r.wdata` of the next byte to load (R208). -/
def State.loadIndex (s : State) : Nat := s.pbase.toNat + s.j.toNat

/-- Whether a load goes through the ROM: only in a WRITE request with `rev = 1` (R208, R123). -/
def State.loadReversed (s : State) : Bool := s.kind == kindWrite && s.rev

/-- The flash address BASE_OFFSET of an image (R6, R70). -/
def Image.base : Image → Word
  | .factory => Config.factoryBase
  | .application => Config.appBase

/-- A run of `n` bytes from address `a` on stays inside one 256-byte flash page (R69). -/
abbrev FitsPage (a n : Nat) : Prop := a % Config.pageBytes + n ≤ Config.pageBytes

end Sys2Proof.Machine
end

