-- ==== Sys2Proof/Machine/Flags.lean ====
section
/-! DEFINITION. The block's only flags, the sticky diagnostics (R26). -/

namespace Sys2Proof.Machine

/-- Record a sample's diagnostic bits: `diag_ie` and `diag_iw` are ORed with bits 18 and 17 (R26). -/
def State.recordDiag (v : Word) (s : State) : State :=
  { s with diagIe := s.diagIe || stIllegalErase v, diagIw := s.diagIw || stIllegalWrite v }

/-- Clear both flags, as acceptance does (R26, R38). -/
def State.clearDiag (s : State) : State := { s with diagIe := false, diagIw := false }

end Sys2Proof.Machine
end

