-- ==== Sys2Proof/Machine/Ops.lean ====
section
/-! DEFINITION. The named operations every meaning and every sequencer step is made of: flash memory, the bridge's reaction
to a command word, the two bus accesses, the time base, ending a request (with OK or by raising an error), taking the
response, acceptance, the poll step and reset. -/

namespace Sys2Proof.Machine

/-- What a step or a meaning answers. -/
abbrev Result := Host.Outcome State Fault Refusal

/-- Continue with the next state; a fault or a refusal stands. -/
def Result.andThen (r : Result) (f : State → Result) : Result :=
  match r with
  | .next s => f s
  | .fault e => .fault e
  | .refused e => .refused e

/-! ### Flash memory -/

/-- The byte at a flash address; an unlisted address reads as erased (R140; log 3). -/
def Memory.read : Memory → Nat → Byte
  | [], _ => Config.erasedByte
  | (x, c) :: m, a => if a = x then c else Memory.read m a

/-- Write one byte, keeping the canonical form: a byte equal to the erased value is not listed. -/
def Memory.write : Memory → Nat → Byte → Memory
  | [], a, b => if b = Config.erasedByte then [] else [(a, b)]
  | (x, c) :: m, a, b =>
    if a < x then (if b = Config.erasedByte then (x, c) :: m else (a, b) :: (x, c) :: m)
    else if a = x then (if b = Config.erasedByte then m else (a, b) :: m)
    else (x, c) :: Memory.write m a b

/-- The canonical form above a lower bound: strictly rising addresses inside the flash, no entry at the erased value. -/
def Memory.wfFrom : Nat → Memory → Bool
  | _, [] => true
  | lo, (x, c) :: m => decide (lo ≤ x) && decide (x < Config.flashBytes) && !(c == Config.erasedByte) && wfFrom (x + 1) m

/-- The canonical form of flash contents. -/
def Memory.wf (m : Memory) : Bool := m.wfFrom 0

/-- Erase the 64 KiB sector that holds an address (R132, R142). -/
def Memory.eraseSector (m : Memory) (a : Nat) : Memory :=
  m.filter fun c => !(c.1 / Config.sectorBytes == a / Config.sectorBytes)

/-- Store bytes from an address on, each address reduced to the flash (R142). -/
def Memory.program : Memory → Nat → List Byte → Memory
  | m, _, [] => m
  | m, a, b :: bs => Memory.program (Memory.write m (a % Config.flashBytes) b) (a + 1) bs

/-- The next `n` free flash bytes (U9, U10; log 24). -/
def freeBytes (draw n : Nat) : List Byte := (List.range n).map (Config.flashDraw draw)

/-! ### The bridge's reaction to a command word -/

/-- Whether the bridge's storage is in the state (R140, R143) rather than hidden in the oracle's draws (R30, R136). -/
def Bridge.modelled (b : Bridge) : Bool :=
  match b.kind with
  | .oracle => false
  | .reference => true
  | .stuckBusy => true
  | .constantToggle => true
  | .noAnswer => false

/-- READ: present the byte and flip the toggle (R142), whatever the word's data field (R92; log 26); the constant-toggle bridge does
not flip (R143). -/
def Bridge.takeRead (a : FlashAddr) (b : Bridge) : Bridge :=
  { b with dat := b.flash.read a.toNat, tog := if b.kind = .constantToggle then b.tog else !b.tog }

/-- The `n` flash bytes from `a` on take free values, where the spec leaves them at any value (U9, U10; log 24). -/
def Bridge.unsettle (a n : Nat) (b : Bridge) : Bridge :=
  { b with flash := b.flash.program a (freeBytes b.flashDraws n), flashDraws := b.flashDraws + 1 }

/-- WRITE: store the page buffer from the address on and empty it (R142), over bytes not erased (R139) and with nothing loaded
(U16) too, as R142 states for this bridge (log 23). Where the page crosses a 256-byte flash page boundary, every byte of its span
takes a free value instead (R69, U9, V6.6; log 24). The word's data field makes no difference (R92; log 26). -/
def Bridge.takeCommit (a : FlashAddr) (b : Bridge) : Bridge :=
  if FitsPage a.toNat b.pbuf.length then { b with flash := b.flash.program a.toNat b.pbuf, pbuf := [] }
  else { b.unsettle a.toNat b.pbuf.length with pbuf := [] }

/-- SECTOR_ERASE: set the sector that holds the address to the erased value (R142), whatever the word's data field (R92;
log 26). -/
def Bridge.takeErase (a : FlashAddr) (b : Bridge) : Bridge :=
  { b with flash := b.flash.eraseSector a.toNat }

/-- PAGE_PROGRAM: append the byte to the page buffer (R142), past 256 loads too (U16; log 23). DESIGN CHOICE: the word's address
field makes no difference, as in R142, where R93 and U6 leave that open (log 26). -/
def Bridge.takeLoad (d : Byte) (b : Bridge) : Bridge := { b with pbuf := b.pbuf ++ [d] }

/-- The status word a read of the reference bridge or a variant of it returns (R141, R143). -/
def Bridge.status (b : Bridge) : Word := statusWord b.tog (b.kind == .stuckBusy) b.dat

/-! ### The two bus accesses and the time base -/

/-- Whether bridge accesses complete (R274). -/
def State.busAnswers (s : State) : Bool := !(s.bridge.kind == .noAnswer)

/-- `RegWrite(v)` (R7, R63, R65): the word is delivered at the bridge register and the bridge reacts to it. The reference
bridge reacts as `react` says; the oracle's reaction is hidden in its later draws, which may depend on every word delivered
(R136). DESIGN CHOICE: the reaction does not depend on whether the bridge is busy, so on the stuck-busy bridge, and after a
scripted busy sample, a word has R142's effect (R143), where R302 and U11 leave it open (log 25). -/
def State.regWrite (v : Word) (react : Bridge → Bridge) (s : State) : Result :=
  if s.busAnswers then
    .next { s with
      bridge := if s.bridge.modelled then react s.bridge else s.bridge
      trace := .regWrite Config.regAddr v :: s.trace }
  else .fault .accessNeverCompletes

/-- The status word the next read returns: the next scripted word, or the reference bridge's (R141), or a free value of the
oracle (R136). -/
def State.sample (s : State) : Word :=
  match s.bridge.script with
  | v :: _ => v
  | [] => if s.bridge.modelled then s.bridge.status else Config.bridgeSample s.trace

/-- The state after `RegRead()` returned `s.sample`: the flags take its diagnostic bits (R26), and the read is on record. -/
def State.sampled (s : State) : State :=
  let s1 := s.recordDiag s.sample
  { s1 with
    bridge := { s.bridge with script := s.bridge.script.tail }
    trace := .regRead Config.regAddr s.sample :: s.trace }

/-- What `now()` returns: the last reading and a non-negative increment, scripted or free (R150). -/
def State.now (s : State) : Nat :=
  match s.clock.script with
  | d :: _ => s.clock.last + d
  | [] => s.clock.last + Config.timeStep s.trace

/-- The state after `now()` returned `s.now`. -/
def State.timed (s : State) : State :=
  { s with clock := { last := s.now, script := s.clock.script.tail }, trace := .time s.now :: s.trace }

/-- Enter a poll state: `r.t0 <- now()`, then `seq` (R35). -/
def State.startWait (q : Seq) (s : State) : State :=
  let s1 := s.timed
  { s1 with t0 := s.now, seq := q.code }

/-! ### Ending a request -/

/-- End the current request with a response that carries the flags (R37, R262). -/
def State.respond (code : RspCode) (info : Info) (data : List Byte) (s : State) : State :=
  { s with
    rsp := some { code := code, info := info, data := data, diagIe := s.diagIe, diagIw := s.diagIw }
    seq := Seq.respond.code }

/-- End the current request with OK (R37). -/
def State.respondOk (data : List Byte) (s : State) : State := s.respond .ok .empty data

/-- `raise E(info)`: end the current request with an error and no data; nothing else changes (R262). -/
def State.raise (code : RspCode) (info : Info) (s : State) : State := s.respond code info []

/-- `raise Timeout{wait, elapsed_ms, pos}` (R261, R262). -/
def State.raiseTimeout (wait : Wait) (elapsedMs : Nat) (pos : Word) (s : State) : State :=
  s.raise .timeout (.timeout wait elapsedMs pos)

/-- `raise AlignmentError{cause, addr, len}` with the request's operands (R261, R262). -/
def State.raiseAlignment (cause : Cause) (s : State) : State :=
  s.raise .alignmentError (.alignment cause s.addr s.len)

/-! ### Acceptance -/

/-- The operands a request kind has (R36); `none` where it has no such field. -/
structure Operands where
  kind : BitVec 3
  addr : Option Word
  len : Option Word
  rev : Option Bool
  tmo : Option Word
  wdata : Option (List Byte)

/-- The register writes of acceptance (R38). A register whose field the kind does not have takes a free value (log 9). -/
def State.latchOperands (o : Operands) (s : State) : State :=
  let s1 := s.clearDiag
  { s1 with
    kind := o.kind
    addr := o.addr.getD (Config.absentAddr s.draws)
    len := o.len.getD (Config.absentLen s.draws)
    rev := o.rev.getD (Config.absentReverse s.draws)
    tmo := o.tmo.getD (Config.absentTimeout s.draws)
    wdata := o.wdata.getD ((Config.absentBytes s.draws).take Config.maxXfer)
    rdata := []
    draws := s.draws + 1 }

/-- Acceptance (R38): in IDLE alone, unless the request is refused; the operands are latched, and then the kind's own first
step follows. -/
def State.accept (o : Operands) (refuse : Option Refusal) (first : State → State) (s : State) : Result :=
  if s.seq = Seq.idle.code then
    match refuse with
    | some r => .refused r
    | none => .next (first (s.latchOperands o))
  else .refused .notIdle

/-- The refusal of a count above MAX_XFER (R38). -/
def refuseCount (count : Word) : Option Refusal :=
  if Config.fitsXfer count.toNat then none else some .overLong

/-- The refusals of a request with data (R38): a declared length that is not the data's, or data longer than MAX_XFER. -/
def refuseData (len : Word) (data : List Byte) : Option Refusal :=
  if len.toNat = data.length then (if Config.fitsXfer data.length then none else some .overLong)
  else some .lengthMismatch

/-- Start the page at offset `off` of the request (R204, R207, R210). -/
def State.startPage (off : Word) (s : State) : State :=
  { s with pbase := off, plen := plenOf s.len off, j := 0#9, seq := Seq.ppLoad.code }

/-! ### The poll step -/

/-- The bridge after a timed-out wait, where its flash is in the state (U10, V7.7): any value in the sector whose erase timed out
(R205) and in the page whose commit timed out (R211), free values of log 24. No other wait changes anything. -/
def State.unsettledBridge (wait : Wait) (s : State) : Bridge :=
  if s.bridge.modelled then
    match wait with
    | .eraseBusy =>
      let a : FlashAddr := s.blockAddress.setWidth 21
      s.bridge.unsettle (a.toNat / Config.sectorBytes * Config.sectorBytes) Config.sectorBytes
    | .programBusy => s.bridge.unsettle (s.commitAddress.setWidth 21).toNat s.plen.toNat
    | .await => s.bridge
    | .toggle => s.bridge
    | .readBusy => s.bridge
  else s.bridge

/-- The state after a timed-out wait, before its response is made. -/
def State.leaveUnsettled (wait : Wait) (s : State) : State := { s with bridge := s.unsettledBridge wait }

/-- `POLL(P)` (R152): one sample, then one reading of the time base; the condition is tested before the deadline on the same
sample; otherwise the state is unchanged but for the sample and the reading, and `seq` stays at `P`. At a timeout the flash bytes
the wait was for are left unsettled (U10). -/
def State.poll (cond : Word → Bool) (limit : Nat) (wait : Wait) (pos : Word)
    (success : Word → Nat → State → State) (s : State) : Result :=
  if s.busAnswers then
    let s2 := s.sampled.timed
    if cond s.sample then .next (success s.sample s.sampled.now s2)
    else if limit ≤ s.sampled.now - s.t0 then .next ((s2.leaveUnsettled wait).raiseTimeout wait (s.sampled.now - s.t0) pos)
    else .next s2
  else .fault .accessNeverCompletes

/-! ### Reset -/

/-- Reset of the block at any time (R290, R291): a request in progress is abandoned without a response; the bridge, the flash,
the time base and the host are not changed. The registers R290 leaves unspecified take `State.reset`'s values (log 1). -/
def State.blockReset (s : State) : State :=
  { State.reset with draws := s.draws, bridge := s.bridge, clock := s.clock, trace := s.trace, host := s.host }

end Sys2Proof.Machine
end

