-- ==== Sys2Proof/Machine/HostAgent.lean ====
section
/-! DEFINITION. The host agent (R240 to R251): what it does with a response, how it runs PREWAIT, WRITE_RPD and READ_RPD, and
reset by the host. -/

namespace Sys2Proof.Machine

/-- The length of the payload an operation moves (R242, R246). -/
def HostState.total (h : HostState) : Nat :=
  match h.op with
  | .prewait => 0
  | .writeRpd => h.fileLen
  | .readRpd => Config.maxRpdBytes

/-- The length of the chunk at the current position (R241). -/
def HostState.chunkLen (h : HostState) : Nat := min Config.chunkBytes (h.total - h.pos)

/-- The bytes the source file yields for the current chunk; fewer than `chunkLen` on a short read (R243). -/
def HostState.chunk (h : HostState) : List Byte := (h.file.drop h.pos).take h.chunkLen

/-- The flash address of the current chunk (R241). -/
def HostState.chunkAddress (h : HostState) : Word := h.image.base + BitVec.ofNat 32 h.pos

/-- The PREWAIT request (R103, R240). -/
def HostState.prewaitReq : Request := { emptyReq 0#3 with timeoutMs := Config.tPrewaitMs }

/-- The WRITE request of the current chunk, always reversed (R243). -/
def HostState.writeReq (h : HostState) : Request :=
  { emptyReq 4#3 with
    addr := h.chunkAddress, len := BitVec.ofNat 32 h.chunk.length, reverse := true, data := h.chunk }

/-- The READ_BYTES request of the current chunk, always reversed (R243, R246). -/
def HostState.readReq (h : HostState) : Request :=
  { emptyReq 1#3 with addr := h.chunkAddress, len := BitVec.ofNat 32 h.chunkLen, reverse := true }

/-- Present a request and wait for its response in the given phase. -/
def HostState.present (r : Request) (p : HostPhase) (h : HostState) : HostState :=
  { h with port := some r, phase := p }

/-- The operation fails and its session ends (R248, R250). -/
def HostState.fail (why : HostFailure) (h : HostState) : HostState :=
  { h with phase := .failed why, session := false }

/-- The operation is done; the lines it prints (R245, R246). -/
def HostState.finish (h : HostState) : HostState :=
  { h with
    phase := .done
    out := h.out ++
      match h.op with
      | .prewait => []
      | .writeRpd => .rpdBytesWritten h.fileLen :: (if h.verify then [.verifyOk] else [])
      | .readRpd => [.rpdBytesRead Config.maxRpdBytes] }

/-- The text of an output line, `key=value` (R245, R246). -/
def HostLine.text : HostLine → String
  | .rpdBytesWritten n => "rpd_bytes_written=" ++ toString n
  | .verifyOk => "verify_ok=1"
  | .rpdBytesRead n => "rpd_bytes_read=" ++ toString n

/-- Whether an ended operation exits with code 0; `none` while it has not ended (R245, R248). -/
def HostPhase.exitZero : HostPhase → Option Bool
  | .done => some true
  | .failed _ => some false
  | _ => none

/-- Go on with the chunk after the current one (R243, R246). -/
def HostState.nextChunk (h : HostState) : HostState := { h with pos := h.pos + h.chunkLen, phase := .chunk }

/-- The mismatches of a read-back against the chunk, from offset `j` of it on (R244). -/
def mismatchesFrom (pos base : Nat) : Nat → List Byte → List Byte → List Mismatch
  | j, x :: xs, y :: ys =>
    if x = y then mismatchesFrom pos base (j + 1) xs ys
    else { fileOffset := pos + j, flashAddress := base + pos + j, expected := x, actual := y } ::
      mismatchesFrom pos base (j + 1) xs ys
  | _, _, _ => []

/-- The mismatches of a verify read (R244). -/
def HostState.mismatches (h : HostState) (data : List Byte) : List Mismatch :=
  mismatchesFrom h.pos h.image.base.toNat 0 h.chunk data

/-- Append a chunk to the destination file, or fail where it does not fit (R246; log 19). -/
def HostState.store (data : List Byte) (h : HostState) : HostState :=
  match h.destRoom with
  | none => { h with dest := h.dest ++ data }.nextChunk
  | some room =>
    if data.length ≤ room then { h with dest := h.dest ++ data, destRoom := some (room - data.length) }.nextChunk
    else h.fail .io

/-- The operation's reaction to an OK response, by the phase it waits in (R243, R246). -/
def HostState.onOk (r : Response) (h : HostState) : HostState :=
  match h.phase with
  | .prewaiting => if h.op = .prewait then h.finish else { h with phase := .chunk }
  | .writing => if h.verify then { h with phase := .readback } else h.nextChunk
  | .verifying =>
    match h.mismatches r.data with
    | [] => h.nextChunk
    | m :: ms => h.fail (.verifyMismatch (m :: ms))
  | .reading => h.store r.data
  | _ => h

/-- What a Timeout response does beyond failing the operation: the session is over, and a request not yet accepted is
withdrawn, so that no further request comes in the same session (R250, R251). -/
def HostState.endSession (h : HostState) : HostState := { h with session := false, port := none }

/-- The operation's reaction to an error response (R243, R248, R250): an operation that waits for the response fails with it; a
Timeout fails one that stands between two requests as well, and ends the session whatever the host does. An operation not yet
started opens a session of its own. -/
def HostState.onError (r : Response) (h : HostState) : HostState :=
  let h1 := if r.code = .timeout then h.endSession else h
  match h.phase with
  | .prewaiting => h1.fail (.response r)
  | .writing => h1.fail (.response r)
  | .verifying => h1.fail (.response r)
  | .reading => h1.fail (.response r)
  | .chunk => if r.code = .timeout then h1.fail (.response r) else h1
  | .readback => if r.code = .timeout then h1.fail (.response r) else h1
  | .idle => h1
  | .start => h1
  | .done => h1
  | .failed _ => h1

/-- The host takes a response: it is kept, its flags are logged (R249), and the operation goes on or fails. -/
def HostState.receive (r : Response) (h : HostState) : HostState :=
  let h1 := { h with last := some r, diagLog := (r.diagIe, r.diagIw) :: h.diagLog }
  if r.code = .ok then h1.onOk r else h1.onError r

/-- `RESPOND` (R39): the response is held until the host takes it; the take returns the block to IDLE.
DEDUCED: it leaves no response in `rsp` (log 11). -/
def stepRespond (s : State) : Result :=
  if s.host.takes then
    match s.rsp with
    | some r => .next { s with rsp := none, seq := Seq.idle.code, host := s.host.receive r }
    | none => .fault .noResponsePending
  else .next s

/-- The start of an operation (R240, R242, R293): the capacity check of WRITE_RPD before anything else, then, unless a session
is open, reset of the block and PREWAIT. READ_RPD starts with an empty destination file (the model's choice: R246 says only that
chunks are appended; log 19). -/
def State.startOperation (s : State) : State :=
  let h : HostState := { s.host with pos := 0, dest := if s.host.op = HostOp.readRpd then [] else s.host.dest }
  if h.op = .writeRpd ∧ Config.maxRpdBytes < h.fileLen then { s with host := h.fail .capacity }
  else if h.session then
    if h.op = .prewait then { s with host := h.present HostState.prewaitReq .prewaiting }
    else { s with host := { h with phase := .chunk } }
  else
    let s1 := s.blockReset
    { s1 with host := { h with session := true }.present HostState.prewaitReq .prewaiting }

/-- The next chunk's request, or the end of the operation (R243, R246). -/
def HostState.chunkMove (h : HostState) : HostState :=
  if h.total ≤ h.pos then h.finish
  else
    match h.op with
    | .prewait => h.finish
    | .writeRpd => if h.chunk.length < h.chunkLen then h.fail .io else h.present h.writeReq .writing
    | .readRpd => h.present h.readReq .reading

/-- The host's move while the block is IDLE with no request: the next move of an operation, or nothing (R38, R248). -/
def State.hostMove (s : State) : State :=
  match s.host.phase with
  | .start => s.startOperation
  | .chunk => { s with host := s.host.chunkMove }
  | .readback => { s with host := s.host.present s.host.readReq .verifying }
  | .idle => s
  | .prewaiting => s
  | .writing => s
  | .verifying => s
  | .reading => s
  | .done => s
  | .failed _ => s

/-- Reset by the host's reset line (R290, R291): the block is reset, the host's session and operation end without a response,
and a request not yet accepted is withdrawn (log 12). -/
def State.resetByLine (s : State) : State :=
  let s1 := s.blockReset
  { s1 with host := { s.host with resetLine := false, session := false, phase := .idle, port := none } }

end Sys2Proof.Machine
end

