-- ==== Sys2Proof/Machine/Commands.lean ====
section
/-! DEFINITION. The meanings of the eight command words (R130 to R134, R97): the delivery of the word to the bridge. -/

namespace Sys2Proof.Machine

/-- READ (R130, R142). -/
def execRead (a : FlashAddr) (d : Byte) (s : State) : Result :=
  s.regWrite (cmd 0#3 (a.setWidth 32) d) (Bridge.takeRead a)

/-- WRITE, the page commit (R131, R142). -/
def execWrite (a : FlashAddr) (d : Byte) (s : State) : Result :=
  s.regWrite (cmd 1#3 (a.setWidth 32) d) (Bridge.takeCommit a)

/-- SECTOR_ERASE (R132, R142). -/
def execSectorErase (a : FlashAddr) (d : Byte) (s : State) : Result :=
  s.regWrite (cmd 2#3 (a.setWidth 32) d) (Bridge.takeErase a)

/-- READ_STATUS (R133): no effect on the reference bridge (R142), any later samples of the oracle (log 4). -/
def execReadStatus (a : FlashAddr) (d : Byte) (s : State) : Result :=
  s.regWrite (cmd 3#3 (a.setWidth 32) d) fun b => b

/-- PAGE_PROGRAM, the load of one byte (R134, R142). -/
def execPageProgram (a : FlashAddr) (d : Byte) (s : State) : Result :=
  s.regWrite (cmd 4#3 (a.setWidth 32) d) (Bridge.takeLoad d)

/-- Operation 5 (R97): no effect on the reference bridge (R142), any later samples of the oracle (log 4). -/
def execReserved5 (a : FlashAddr) (d : Byte) (s : State) : Result :=
  s.regWrite (cmd 5#3 (a.setWidth 32) d) fun b => b

/-- Operation 6 (R97): as operation 5. -/
def execReserved6 (a : FlashAddr) (d : Byte) (s : State) : Result :=
  s.regWrite (cmd 6#3 (a.setWidth 32) d) fun b => b

/-- Operation 7 (R97): as operation 5. -/
def execReserved7 (a : FlashAddr) (d : Byte) (s : State) : Result :=
  s.regWrite (cmd 7#3 (a.setWidth 32) d) fun b => b

end Sys2Proof.Machine
end

