-- ==== Sys2Proof/Machine/Requests.lean ====
section
/-! DEFINITION. The meanings of the eight request kinds: the acceptance step (R38) with each kind's first step. -/

namespace Sys2Proof.Machine

/-- AWAIT_NOT_BUSY (R155): start the wait of `AW_POLL`. -/
def execAwaitNotBusy (timeoutMs : Word) (s : State) : Result :=
  s.accept { kind := kindAwait, addr := none, len := none, rev := none, tmo := some timeoutMs, wdata := none } none
    (State.startWait .awPoll)

/-- The first step of READ_BYTES (R180): nothing to do for a zero count, a seed sample first when the synchronizer holds no
observed toggle, else the first READ command. -/
def State.startRead (s : State) : State :=
  let s1 := { s with i := 0#32 }
  if s.len = 0#32 then s1.respondOk []
  else if s.toggleSeeded then { s1 with seq := Seq.rdCmd.code }
  else { s1 with seq := Seq.rdSeed.code }

/-- READ_BYTES (R180). -/
def execReadBytes (addr count : Word) (reverse : Bool) (s : State) : Result :=
  s.accept { kind := kindReadBytes, addr := some addr, len := some count, rev := some reverse, tmo := none, wdata := none }
    (refuseCount count) State.startRead

/-- The first step of ERASE (R202): the alignment check, then the block loop. -/
def State.startErase (s : State) : State :=
  if sectorAligned s.addr then
    let s1 := { s with nblk := nblkOf s.len, k := 0#32 }
    if s1.nblk = 0#32 then s1.respondOk [] else { s1 with seq := Seq.erCmd.code }
  else s.raiseAlignment .eraseAddrUnaligned

/-- ERASE (R201, R202). -/
def execErase (addr size : Word) (s : State) : Result :=
  s.accept { kind := kindErase, addr := some addr, len := some size, rev := none, tmo := none, wdata := none } none
    State.startErase

/-- The first step of PAGE_PROGRAM (R207). -/
def State.startProgram (s : State) : State :=
  if s.len = 0#32 then s.respondOk [] else s.startPage 0#32

/-- PAGE_PROGRAM (R207). -/
def execPageProgramReq (addr len : Word) (data : List Byte) (s : State) : Result :=
  s.accept { kind := kindPageProgram, addr := some addr, len := some len, rev := none, tmo := none, wdata := some data }
    (refuseData len data) State.startProgram

/-- The first step of WRITE (R213): the address check before the length check (R264), then one erase block. -/
def State.startWrite (s : State) : State :=
  if sectorAligned s.addr then
    if s.len.toNat ≤ Config.maxWriteLen then { s with nblk := 1#32, k := 0#32, seq := Seq.erCmd.code }
    else s.raiseAlignment .writeLenTooLarge
  else s.raiseAlignment .writeAddrUnaligned

/-- WRITE (R213). -/
def execWriteReq (addr len : Word) (data : List Byte) (reverse : Bool) (s : State) : Result :=
  s.accept { kind := kindWrite, addr := some addr, len := some len, rev := some reverse, tmo := none, wdata := some data }
    (refuseData len data) State.startWrite

/-- Request kind 5: refused, the block has no step for it (R38, R101). -/
def execReqReserved5 (_s : State) : Result := .refused (.reservedKind 5#3)

/-- Request kind 6: refused (R38, R101). -/
def execReqReserved6 (_s : State) : Result := .refused (.reservedKind 6#3)

/-- Request kind 7: refused (R38, R101). -/
def execReqReserved7 (_s : State) : Result := .refused (.reservedKind 7#3)

end Sys2Proof.Machine
end

