-- ==== Sys2Proof/Machine/Dispatch.lean ====
section
/-! DEFINITION. One arm per instruction: the call of its meaning. -/

namespace Sys2Proof.Machine

def exec (i : Instr) (s : State) : Host.Outcome State Fault Refusal :=
  match i with
  -- command words
  | .read a d => Sys2Proof.Machine.execRead a d s
  | .write a d => Sys2Proof.Machine.execWrite a d s
  | .sectorErase a d => Sys2Proof.Machine.execSectorErase a d s
  | .readStatus a d => Sys2Proof.Machine.execReadStatus a d s
  | .pageProgram a d => Sys2Proof.Machine.execPageProgram a d s
  | .reserved5 a d => Sys2Proof.Machine.execReserved5 a d s
  | .reserved6 a d => Sys2Proof.Machine.execReserved6 a d s
  | .reserved7 a d => Sys2Proof.Machine.execReserved7 a d s
  -- requests
  | .awaitNotBusy t => Sys2Proof.Machine.execAwaitNotBusy t s
  | .readBytes addr count rev => Sys2Proof.Machine.execReadBytes addr count rev s
  | .erase addr size => Sys2Proof.Machine.execErase addr size s
  | .pageProgramReq addr len data => Sys2Proof.Machine.execPageProgramReq addr len data s
  | .writeReq addr len data rev => Sys2Proof.Machine.execWriteReq addr len data rev s
  | .reqReserved5 => Sys2Proof.Machine.execReqReserved5 s
  | .reqReserved6 => Sys2Proof.Machine.execReqReserved6 s
  | .reqReserved7 => Sys2Proof.Machine.execReqReserved7 s

end Sys2Proof.Machine
end

