-- ==== Sys2Proof/Machine/Sequencer.lean ====
section
/-! DEFINITION. The sequencer's microsteps: the five poll states (R154), the seed sample (R181) and the command-writing
states (R182, R203, R208, R209), each with what follows its success. -/

namespace Sys2Proof.Machine

/-- Write a command word: the word is delivered as the instruction it decodes to (R65, R99). -/
def State.issue (v : Word) (s : State) : Result := exec (decodeCmd v) s

/-- Write a command word and start the wait for its effect: `r.t0` is read after the access (R35). -/
def State.issueAndWait (v : Word) (q : Seq) (s : State) : Result :=
  (s.issue v).andThen fun s1 => .next (s1.startWait q)

/-! ### AWAIT_NOT_BUSY -/

/-- `AW_POLL` (R154, R155). -/
def stepAwPoll (s : State) : Result :=
  s.poll (fun v => !stBusy v) s.tmo.toNat .await 0#32 fun _ _ s1 => s1.respondOk []

/-! ### READ_BYTES -/

/-- `RD_SEED` (R181): the synchronizer takes the sample's toggle; no time is read. -/
def stepRdSeed (s : State) : Result :=
  if s.busAnswers then
    .next { s.sampled with lastToggle := stToggle s.sample, toggleSeeded := true, seq := Seq.rdCmd.code }
  else .fault .accessNeverCompletes

/-- `RD_CMD` (R182). -/
def stepRdCmd (s : State) : Result := s.issueAndWait (cmd 0#3 s.readAddress 0#8) .rdToggle

/-- What follows the toggle edge (R183). -/
def State.edgeSeen (v : Word) (t : Nat) (s : State) : State :=
  { s with lastToggle := stToggle v, latched := stData v, t0 := t, seq := Seq.rdBusy.code }

/-- `RD_TOGGLE` (R154, R183, R185): the edge is against the stored toggle. -/
def stepRdToggle (s : State) : Result :=
  s.poll (fun v => stToggle v != s.lastToggle) Config.tToggleMs .toggle s.i State.edgeSeen

/-- The delivery of the latched byte, reversed when `r.rev = 1`, and the move to the next byte (R184). -/
def State.byteDone (s : State) : State :=
  let s1 := { s with rdata := s.rdata ++ [romIf s.rev s.latched], i := s.i + 1#32 }
  if s.i.toNat + 1 < s.len.toNat then { s1 with seq := Seq.rdCmd.code } else s1.respondOk s1.rdata

/-- `RD_BUSY` (R154, R184, R187). -/
def stepRdBusy (s : State) : Result :=
  s.poll (fun v => !stBusy v) Config.tReadBusyMs .readBusy s.i fun _ _ s1 => s1.byteDone

/-! ### ERASE -/

/-- `ER_CMD` (R203). -/
def stepErCmd (s : State) : Result := s.issueAndWait (cmd 2#3 s.blockAddress 0#8) .erBusy

/-- What follows an erased block (R204): the next block, the program part of a WRITE, or the end. -/
def State.blockDone (s : State) : State :=
  let s1 := { s with k := s.k + 1#32 }
  if s.k.toNat + 1 < s.nblk.toNat then { s1 with seq := Seq.erCmd.code }
  else if s.kind = kindWrite ∧ 0 < s.len.toNat then s1.startPage 0#32
  else s1.respondOk []

/-- `ER_BUSY` (R154, R204, R205): a timeout reports the address of the failing block. -/
def stepErBusy (s : State) : Result :=
  s.poll (fun v => !stBusy v) Config.tEraseMs .eraseBusy (s.blockAddress &&& Config.addrMask) fun _ _ s1 => s1.blockDone

/-! ### PAGE_PROGRAM and WRITE -/

/-- What follows a load: the next byte of the page, or its commit (R208). -/
def State.loadDone (s : State) : State :=
  let s1 := { s with j := s.j + 1#9 }
  if s1.j = s.plen then { s1 with seq := Seq.ppCommit.code } else { s1 with seq := Seq.ppLoad.code }

/-- `PP_LOAD` (R208): no time is read and no wait follows. -/
def stepPpLoad (s : State) : Result :=
  match s.wdata[s.loadIndex]? with
  | some w => (s.issue (cmd 4#3 0#32 (romIf s.loadReversed w))).andThen fun s1 => .next s1.loadDone
  | none => .fault .loadIndexOutOfData

/-- `PP_COMMIT` (R209). -/
def stepPpCommit (s : State) : Result := s.issueAndWait (cmd 1#3 s.commitAddress 0#8) .ppBusy

/-- What follows a programmed page (R210): the next page or the end. DEDUCED: the test is exact, on naturals, as R200 has the
geometry (log 13). -/
def State.pageDone (s : State) : State :=
  if s.pbase.toNat + 256 < s.len.toNat then s.startPage (s.pbase + 256#32)
  else { s with pbase := s.pbase + 256#32 }.respondOk []

/-- `PP_BUSY` (R154, R210, R211): a timeout reports the failing page's offset. -/
def stepPpBusy (s : State) : Result :=
  s.poll (fun v => !stBusy v) Config.tProgramMs .programBusy s.pbase fun _ _ s1 => s1.pageDone

end Sys2Proof.Machine
end

