-- ==== Sys2Proof/Machine/Fetch.lean ====
section
/-! DEFINITION. Where a step fetches an instruction: the bridge's write register for a posted command word (R28, R307), the
request port in IDLE for a request (R38); what a step does when there is none; and how a packet is placed for the next
fetch. Log 7 and 8. -/

namespace Sys2Proof.Machine

/-- The instruction the next step fetches, and the state with it taken from where it stood: a posted command word first
(R307), else in IDLE the request in the port (R38). -/
def State.fetch (s : State) : Option (Instr × State) :=
  match s.bridge.posted with
  | some v => some (decodeCmd v, { s with bridge := { s.bridge with posted := none } })
  | none =>
    if s.seq = Seq.idle.code then
      match s.host.port with
      | some r => some (decodeReq r, { s with host := { s.host with port := none } })
      | none => none
    else none

/-- The step of a sequencer state when nothing is fetched (R22); in IDLE the host moves, and where it has no move the step
does nothing (R38). -/
def stepSeq (q : Seq) (s : State) : Result :=
  match q with
  | .idle => .next s.hostMove
  | .awPoll => stepAwPoll s
  | .rdSeed => stepRdSeed s
  | .rdCmd => stepRdCmd s
  | .rdToggle => stepRdToggle s
  | .rdBusy => stepRdBusy s
  | .erCmd => stepErCmd s
  | .erBusy => stepErBusy s
  | .ppLoad => stepPpLoad s
  | .ppCommit => stepPpCommit s
  | .ppBusy => stepPpBusy s
  | .respond => stepRespond s

/-- The step when nothing is fetched: by the sequencer's state; an unused code is a fault (R23). -/
def stepUnfetched (s : State) : Result :=
  match Seq.ofCode s.seq with
  | some q => stepSeq q s
  | none => .fault (.unusedSeq s.seq)

/-- Place a packet where the next step fetches it: a command word in the bridge's write register; a request in the port, with
the block in IDLE and no word posted. The reset line is off. -/
def State.withPacket (p : Packet) (s : State) : State :=
  match p with
  | .cmd w => { s with bridge := { s.bridge with posted := some w }, host := { s.host with resetLine := false } }
  | .req r =>
    { s with
      seq := Seq.idle.code
      bridge := { s.bridge with posted := none }
      host := { s.host with resetLine := false, port := some r } }

end Sys2Proof.Machine
end

