-- ==== Sys2Proof/Machine/Step.lean ====
section
/-! DEFINITION. One step of the machine, and the placing of an instruction where the step fetches it. -/

namespace Sys2Proof.Machine

/-- One step: the host's reset line first (R291); then the fetched instruction, if there is one; else the sequencer's own
step. -/
def step (s : State) : Host.Outcome State Fault Refusal :=
  if s.host.resetLine then .next s.resetByLine
  else
    match s.fetch with
    | some (i, s1) => exec i s1
    | none => stepUnfetched s

/-- The state with the instruction of the opcode table's bits `w` placed where the next step fetches; the state unchanged for
a size that is no packet. -/
def State.withFetchWord (s : State) (nbits w : Nat) : State :=
  match packetOfTableWord nbits w with
  | some p => s.withPacket p
  | none => s

end Sys2Proof.Machine
end

