-- ==== Sys2Proof/Safety.lean ====
section
/-! DEFINITION. What claims speak of: the events a step adds, the block's invariant, and the bridge contract of R135 as a
named premise. -/

namespace Sys2Proof.Safety

open Sys2Proof.Machine

/-- The next step runs the sequencer's own step: no reset line, and no instruction to fetch. -/
def Unfetched (s : State) : Prop := s.host.resetLine = false ∧ s.fetch = none

/-- The sequencer is in state `q`, and the next step is its own (R22). -/
def At (q : Seq) (s : State) : Prop := s.seq = q.code ∧ s.host.resetLine = false ∧ s.bridge.posted = none

/-- How many bridge accesses are on record. -/
def accesses (s : State) : Nat := s.trace.countP BusEvent.isAccess

/-- `es`, newest first, is what was added to the trace between two states. -/
def Added (s s' : State) (es : List BusEvent) : Prop := s'.trace = es ++ s.trace

/-! ### The block's invariant -/

/-- The wait in progress started no later than the time base's last reading (R35, R150). -/
def WaitStarted (s : State) : Prop := s.t0 ≤ s.clock.last

/-- A READ_BYTES request with a byte in progress: the index is inside the count, and the bytes so far are as many as the index
says (R180, R184). -/
def Reading (s : State) : Prop :=
  s.kind = kindReadBytes ∧ s.i.toNat < s.len.toNat ∧ s.len.toNat ≤ Config.maxXfer ∧ s.rdata.length = s.i.toNat ∧ s.rsp = none

/-- An ERASE or WRITE request with an erase block in progress (R202, R203, R213). -/
def Erasing (s : State) : Prop :=
  (s.kind = kindErase ∧ s.nblk = nblkOf s.len ∨
    s.kind = kindWrite ∧ s.nblk = 1#32 ∧ s.len.toNat ≤ Config.maxWriteLen ∧ s.len.toNat = s.wdata.length) ∧
  sectorAligned s.addr = true ∧ s.k.toNat < s.nblk.toNat ∧ s.rsp = none

/-- A PAGE_PROGRAM or WRITE request with a page in progress (R200, R207, R213): the page starts inside the data at a multiple
of 256, and its length is the geometry's. -/
def Programming (s : State) : Prop :=
  (s.kind = kindPageProgram ∨ s.kind = kindWrite ∧ sectorAligned s.addr = true ∧ s.len.toNat ≤ Config.maxWriteLen) ∧
  s.len.toNat = s.wdata.length ∧ s.pbase.toNat < s.len.toNat ∧ s.pbase.toNat % Config.pageBytes = 0 ∧
  s.plen.toNat = min Config.pageBytes (s.len.toNat - s.pbase.toNat) ∧ s.rsp = none

/-- A response of the kinds R37 and R263 allow: data only with OK, and each error with its own record. -/
def LegalResponse (kind : BitVec 3) (r : Response) : Prop :=
  match r.code, r.info with
  | .ok, .empty => kind ≠ kindReadBytes → r.data = []
  | .alignmentError, .alignment cause _ _ =>
    r.data = [] ∧ (cause = .eraseAddrUnaligned ∧ kind = kindErase ∨ cause ≠ .eraseAddrUnaligned ∧ kind = kindWrite)
  | .timeout, .timeout wait _ _ =>
    r.data = [] ∧
      match wait with
      | .await => kind = kindAwait
      | .toggle => kind = kindReadBytes
      | .readBusy => kind = kindReadBytes
      | .eraseBusy => kind = kindErase ∨ kind = kindWrite
      | .programBusy => kind = kindPageProgram ∨ kind = kindWrite
  | _, _ => False

/-- What holds of the registers in each sequencer state (R21, R22). That `rsp` is none in IDLE is the model's reading (log 11). -/
def SeqInv (s : State) : Seq → Prop
  | .idle => s.rsp = none
  | .awPoll => s.kind = kindAwait ∧ WaitStarted s ∧ s.rsp = none
  | .rdSeed => Reading s ∧ s.i = 0#32 ∧ s.toggleSeeded = false
  | .rdCmd => Reading s ∧ s.toggleSeeded = true
  | .rdToggle => Reading s ∧ s.toggleSeeded = true ∧ WaitStarted s
  | .rdBusy => Reading s ∧ s.toggleSeeded = true ∧ WaitStarted s
  | .erCmd => Erasing s
  | .erBusy => Erasing s ∧ WaitStarted s
  | .ppLoad => Programming s ∧ s.j.toNat < s.plen.toNat
  | .ppCommit => Programming s ∧ s.j = s.plen
  | .ppBusy => Programming s ∧ s.j = s.plen ∧ WaitStarted s
  | .respond => ∃ r, s.rsp = some r ∧ LegalResponse s.kind r

/-- The block's invariant: `seq` is one of the twelve codes and the registers are as that state has them (R22, R23), the data
sequences are within MAX_XFER (R21), and the flash contents keep their canonical form. -/
def Inv (s : State) : Prop :=
  (∃ q, Seq.ofCode s.seq = some q ∧ SeqInv s q) ∧ s.wdata.length ≤ Config.maxXfer ∧ s.rdata.length ≤ Config.maxXfer ∧
    s.bridge.flash.wf = true

/-! ### The bridge contract (R135) -/

/-- What a bridge that keeps the contract is known to hold at a flash address. A byte is `erased` from a SECTOR_ERASE to the next
commit that names it, since a commit to anything else leaves any value (R139, U8). -/
inductive FlashByte where
  | erased
  | holds (b : Byte)
  | unspecified
  deriving DecidableEq, Repr

/-- The operation whose end no sample has shown yet: a READ that has not flipped the toggle, or a busy time that is at most
`limitMs` long. `since` is the first reading of the time base after the busy time began; `span` is the start and length of the
flash bytes an erase or commit changes, none for a READ. -/
inductive Outstanding where
  | none
  | read (a : FlashAddr)
  | busy (limitMs : Nat) (since : Option Nat) (span : Option (Nat × Nat))
  deriving DecidableEq, Repr

/-- What a bridge that keeps the contract has promised after the events so far (R135). `erasedByte` is the open parameter
ERASED_BYTE, any value (R138, U7); `loads` are the bytes loaded since the last commit; `shown` is the byte of the last flip;
`busy` is the busy bit of the last sample; `last` is the last reading of the time base. Log 20. -/
structure Contract where
  erasedByte : Byte
  flash : Nat → FlashByte
  loads : List Byte
  toggle : Bool
  shown : Option Byte
  op : Outstanding
  busy : Bool
  last : Nat

/-- The byte promised at a flash address; `none` where the spec leaves any value. -/
def Contract.byteAt (c : Contract) (x : Nat) : Option Byte :=
  match c.flash x with
  | .erased => some c.erasedByte
  | .holds b => some b
  | .unspecified => none

/-- Whether the contract allows an event (R135). The toggle flips only for an outstanding READ; the sample of the flip shows the
flash byte, and later samples go on showing what it showed; and no sample is busy once a reading of the time base has shown
the limit of the busy time to be over. -/
def Contract.Allows (c : Contract) : BusEvent → Prop
  | .regWrite _ _ => True
  | .regRead _ v =>
    (match c.op with
      | .read a => stToggle v ≠ c.toggle → ∀ b, c.byteAt a.toNat = some b → stData v = b
      | _ => stToggle v = c.toggle) ∧
    (stToggle v = c.toggle → ∀ b, c.shown = some b → stData v = b) ∧
    (match c.op with
      | .busy limitMs (some t) _ => stBusy v = true → c.last < t + limitMs
      | _ => True)
  | .time _ => True

/-- Whether a command may be written with a known effect: no operation is outstanding, and the last sample was not busy
(R302, U11). -/
def Contract.quiet (c : Contract) : Bool := decide (c.op = .none) && !c.busy

/-- The flash after a commit at `a`. Inside one 256-byte flash page, bytes that were erased take the loaded ones, and others any
value (R139, U8). Across a page boundary every byte of both pages takes any value (R69, U9). -/
def commitFlash (flash : Nat → FlashByte) (a : Nat) (bytes : List Byte) (x : Nat) : FlashByte :=
  if FitsPage a bytes.length then
    if a ≤ x then
      match bytes[x - a]? with
      | some b => if flash x = .erased then .holds b else .unspecified
      | none => flash x
    else flash x
  else if x / Config.pageBytes = a / Config.pageBytes ∨
      x / Config.pageBytes = (a + bytes.length - 1) % Config.flashBytes / Config.pageBytes then .unspecified
  else flash x

/-- The contract after a command the block can emit (R130 to R134); `none` where the spec gives the bridge no effect: a commit
with nothing loaded and a load past 256 (U16). -/
def Contract.command (c : Contract) : Instr → Option Contract
  | .read a _ => some { c with op := .read a }
  | .write a _ =>
    if c.loads = [] then none
    else some { c with
      flash := commitFlash c.flash a.toNat c.loads, loads := []
      op := .busy Config.tProgramMs none (some (a.toNat, c.loads.length)) }
  | .sectorErase a _ =>
    some { c with
      flash := fun x => if x / Config.sectorBytes = a.toNat / Config.sectorBytes then .erased else c.flash x
      op := .busy Config.tEraseMs none (some (a.toNat / Config.sectorBytes * Config.sectorBytes, Config.sectorBytes)) }
  | .pageProgram _ d => if c.loads.length < Config.pageBytes then some { c with loads := c.loads ++ [d] } else none
  | _ => none

/-- The contract after a sample. A flip ends the outstanding READ and starts its busy time; a sample that is not busy ends a
busy time. -/
def Contract.sampled (c : Contract) (v : Word) : Contract :=
  match c.op with
  | .none => { c with busy := stBusy v }
  | .read _ =>
    if stToggle v = c.toggle then { c with busy := stBusy v }
    else { c with
      toggle := stToggle v, shown := some (stData v), busy := stBusy v
      op := if stBusy v then .busy Config.tReadBusyMs none none else .none }
  | .busy limitMs since span => { c with busy := stBusy v, op := if stBusy v then .busy limitMs since span else .none }

/-- The flash with a span of bytes at any value (U10). -/
def unsettledFlash (flash : Nat → FlashByte) (span : Option (Nat × Nat)) (x : Nat) : FlashByte :=
  match span with
  | some (a, n) => if a ≤ x ∧ x < a + n then .unspecified else flash x
  | none => flash x

/-- The contract after a reading of the time base. The first one after a busy time began starts its clock; one at or past its
limit, with no sample yet that was not busy, is where the block's wait times out, and leaves the bytes of the erase or commit at
any value from then on (R205, R211, U10). -/
def Contract.timed (c : Contract) (t : Nat) : Contract :=
  match c.op with
  | .busy limitMs none span => { c with last := t, op := .busy limitMs (some t) span }
  | .busy limitMs (some t0) span =>
    { c with last := t, flash := if limitMs ≤ t - t0 then unsettledFlash c.flash span else c.flash }
  | .none => { c with last := t }
  | .read _ => { c with last := t }

/-- The contract after an event (R135); `none` where nothing is promised any more. A command written while the bridge may be
busy or a READ is outstanding ends it (U11), and so does a word the block cannot emit: the spec gives the bridge no effect for
READ_STATUS, operations 5 to 7, a data field on READ, WRITE or SECTOR_ERASE, or an address field on a load (R92, R93, R97,
R98). -/
def Contract.after (c : Contract) : BusEvent → Option Contract
  | .regWrite _ v => if c.quiet && (decodeCmd v).emittable then c.command (decodeCmd v) else none
  | .regRead _ v => some (c.sampled v)
  | .time t => some (c.timed t)

/-- The contract after events, oldest first; `none` once nothing is promised any more. -/
def Contract.afterAll (c : Contract) : List BusEvent → Option Contract
  | [] => some c
  | e :: es => (c.after e).bind fun c' => c'.afterAll es

/-- The events, oldest first, keep the contract for as long as it promises anything. -/
def Contract.Keeps (c : Contract) : List BusEvent → Prop
  | [] => True
  | e :: es => c.Allows e ∧ ∀ c', c.after e = some c' → c'.Keeps es

/-- The first `n` bytes a READ_BYTES request is to return from flash contents `m` (R180): the bytes at the masked addresses
from `r.addr` on, through the ROM when `r.rev = 1`. -/
def readResult (m : Memory) (addr : Word) (rev : Bool) (n : Nat) : List Byte :=
  (List.range n).map fun j => romIf rev (m.read ((addr + BitVec.ofNat 32 j).setWidth 21).toNat)

/-- `data` are `n` bytes read from `addr` on, and each is the promised flash byte, through the ROM when `rev = 1`, wherever the
contract promises one (R180). -/
def ReadsTrue (c : Contract) (addr : Word) (rev : Bool) (n : Nat) (data : List Byte) : Prop :=
  data.length = n ∧ ∀ j < n, ∀ b, c.byteAt ((addr + BitVec.ofNat 32 j).setWidth 21).toNat = some b →
    data[j]? = some (romIf rev b)

/-- A READ_BYTES request is in phase with a contract-keeping bridge: no other operation is outstanding, the stored toggle is
the one last shown, and the bytes read so far are the flash's (R183, R184, R300). -/
def InPhase (s : State) (c : Contract) : Prop :=
  match Seq.ofCode s.seq with
  | some .rdSeed => c.op = .none ∧ s.i = 0#32 ∧ s.rdata = [] ∧ 0 < s.len.toNat
  | some .rdCmd =>
    c.op = .none ∧ s.lastToggle = c.toggle ∧ s.i.toNat < s.len.toNat ∧ (s.i ≠ 0#32 → c.busy = false) ∧
      ReadsTrue c s.addr s.rev s.i.toNat s.rdata
  | some .rdToggle =>
    c.op = .read (s.readAddress.setWidth 21) ∧ s.lastToggle = c.toggle ∧ s.i.toNat < s.len.toNat ∧
      ReadsTrue c s.addr s.rev s.i.toNat s.rdata
  | some .rdBusy =>
    (c.op = .none ∨ ∃ since, c.op = .busy Config.tReadBusyMs since none) ∧ s.lastToggle = c.toggle ∧
      s.i.toNat < s.len.toNat ∧ (∀ b, c.byteAt (s.readAddress.setWidth 21).toNat = some b → s.latched = b) ∧
      ReadsTrue c s.addr s.rev s.i.toNat s.rdata
  | some .respond => ∀ r, s.rsp = some r → r.code = .ok → ReadsTrue c s.addr s.rev s.len.toNat r.data
  | _ => False

/-- The reference bridge's state is what the contract promises, with every operation complete at once (R140): its toggle has
already flipped for an outstanding READ, and otherwise shows the byte last shown; no sample was busy. -/
def Mirrors (b : Bridge) (c : Contract) : Prop :=
  b.flash.wf = true ∧ c.erasedByte = 0xFF#8 ∧ (∀ x v, c.byteAt x = some v → b.flash.read x = v) ∧ b.pbuf = c.loads ∧
    c.busy = false ∧
    match c.op with
    | .read a => b.tog = !c.toggle ∧ b.dat = b.flash.read a.toNat
    | _ => b.tog = c.toggle ∧ ∀ v, c.shown = some v → b.dat = v

/-- The block and a contract are at the same point of a request: the stored toggle, if any, is the one last shown, and the
outstanding operation and the loads are those of the sequencer's state (R22). -/
def InStep (s : State) (c : Contract) : Prop :=
  (s.toggleSeeded = true → s.lastToggle = c.toggle) ∧
  match Seq.ofCode s.seq with
  | some .rdToggle => (∃ a, c.op = .read a) ∧ c.loads = []
  | some .rdBusy => (∀ a, c.op ≠ .read a) ∧ c.loads = []
  | some .erBusy => (∀ a, c.op ≠ .read a) ∧ c.loads = []
  | some .ppBusy => (∀ a, c.op ≠ .read a) ∧ c.loads = []
  | some .ppLoad => c.op = .none ∧ c.loads.length = s.j.toNat
  | some .ppCommit => c.op = .none ∧ c.loads.length = s.plen.toNat
  | _ => c.op = .none ∧ c.loads = []

end Sys2Proof.Safety
end

