-- ==== Sys2Proof/Certificates/Slice0/Obligations.lean ====
section
/-! DEFINITION. The statements about the model, from the numbered rules of the spec. Nothing is proved here. -/

open Sys2Proof Sys2Proof.Machine Sys2Proof.Safety

/-! ### Encoding -/

/-- R94, R99, R100, R101: words written out from the spec's tables decode to the instructions they stand for. -/
def Obligations.WrittenOutWordsDecode : Prop :=
  decodeCmd 0x0F000000#32 = .read 0x0F0000#21 0#8 ∧
  decodeCmd 0x2F010000#32 = .write 0x0F0100#21 0#8 ∧
  decodeCmd 0x50000000#32 = .sectorErase 0x100000#21 0#8 ∧
  decodeCmd 0x60000000#32 = .readStatus 0#21 0#8 ∧
  decodeCmd 0x80000048#32 = .pageProgram 0#21 0x48#8 ∧
  decodeCmd 0xA0000000#32 = .reserved5 0#21 0#8 ∧
  decodeCmd 0xC0000000#32 = .reserved6 0#21 0#8 ∧
  decodeCmd 0xE0000000#32 = .reserved7 0#21 0#8 ∧
  decodeCmd 0x12345678#32 = .read 0x123456#21 0x78#8 ∧
  decodeReq { emptyReq 0#3 with timeoutMs := 2500#32 } = .awaitNotBusy 2500#32 ∧
  decodeReq { emptyReq 1#3 with addr := 0x10#32, len := 1#32, reverse := true } = .readBytes 0x10#32 1#32 true ∧
  decodeReq { emptyReq 2#3 with addr := 0xF0000#32, len := 0x20000#32 } = .erase 0xF0000#32 0x20000#32 ∧
  decodeReq { emptyReq 3#3 with addr := 0x100#32, len := 1#32, data := [0x12#8] } =
    .pageProgramReq 0x100#32 1#32 [0x12#8] ∧
  decodeReq { emptyReq 4#3 with addr := 0x10000#32, len := 1#32, data := [1#8], reverse := true } =
    .writeReq 0x10000#32 1#32 [1#8] true ∧
  decodeReq (emptyReq 5#3) = .reqReserved5 ∧
  decodeReq (emptyReq 6#3) = .reqReserved6 ∧
  decodeReq (emptyReq 7#3) = .reqReserved7

/-- R90, R99, R100: decoding the encoding of an instruction, of either format and with any operands, gives the instruction
back. -/
def Obligations.DecodeOfEncodeIsIdentity : Prop := ∀ i : Instr, decode (encode i) = i

/-- R99: no bit of a command word is dropped by decoding. -/
def Obligations.EncodeOfDecodedWordIsTheWord : Prop := ∀ w : Word, encode (decodeCmd w) = .cmd w

/-- R90, R91: the three fields as numbers; the fields cover the word, and bits 31:21 of an address operand are discarded. -/
def Obligations.CommandWordIsItsFields : Prop :=
  (∀ (op : BitVec 3) (a : Word) (d : Byte),
    (cmd op a d).toNat = op.toNat * 2 ^ 29 + a.toNat % 2 ^ 21 * 2 ^ 8 + d.toNat ∧
    flashAddr (cmd op a d) = (a &&& Config.addrMask).setWidth 21) ∧
  ∀ v : Word, v.toNat = (opField v).toNat * 2 ^ 29 + (flashAddr v).toNat * 2 ^ 8 + (dataField v).toNat

/-- R120: bit `i` of the ROM's entry is bit `7 - i` of its index. -/
def Obligations.RomReflectsBits : Prop := ∀ (b : Byte) (i : Nat), i < 8 → (rom b).getLsbD i = b.getLsbD (7 - i)

/-- R122: involution, bijection, and exactly the sixteen fixed points. -/
def Obligations.RomIsAnInvolutionWithSixteenFixedPoints : Prop :=
  (∀ b : Byte, rom (rom b) = b) ∧ Function.Bijective rom ∧
  ∀ b : Byte, rom b = b ↔
    b ∈ [0x00#8, 0x18#8, 0x24#8, 0x3C#8, 0x42#8, 0x5A#8, 0x66#8, 0x7E#8, 0x81#8, 0x99#8, 0xA5#8, 0xBD#8, 0xC3#8, 0xDB#8,
      0xE7#8, 0xFF#8]

/-! ### Reset -/

/-- R290: the registers reset sets, in the reset state and after a reset of the block in any state; reset makes no bridge
access and changes neither the bridge nor its flash. -/
def Obligations.ResetSetsTheStatedRegisters : Prop :=
  (∀ s : State, s = State.reset ∨ (∃ u : State, s = u.blockReset) →
    s.seq = Seq.idle.code ∧ s.toggleSeeded = false ∧ s.diagIe = false ∧ s.diagIw = false ∧ s.rsp = none ∧ s.wdata = [] ∧
      s.rdata = []) ∧
  ∀ s : State, s.blockReset.bridge = s.bridge ∧ s.blockReset.trace = s.trace

/-- R290, R291: the reset line resets the block in the middle of whatever it does; no response is given, and the bridge keeps
what it was told. What becomes of the host's own operation is the model's choice (log 12). -/
def Obligations.ResetLineAbandonsTheRequest : Prop :=
  ∀ s : State, s.host.resetLine = true → ∃ t, step s = .next t ∧
    t.seq = Seq.idle.code ∧ t.rsp = none ∧ t.toggleSeeded = false ∧ t.diagIe = false ∧ t.diagIw = false ∧
    t.wdata = [] ∧ t.rdata = [] ∧ t.bridge = s.bridge ∧ t.trace = s.trace ∧ t.clock = s.clock ∧
    t.host.last = s.host.last ∧ t.host.resetLine = false

/-- R22, R290: the reset state meets the invariant. -/
def Obligations.ResetMeetsTheInvariant : Prop := Inv State.reset

/-! ### The step -/

/-- A step runs the decoded instruction: a posted command word (log 8), or in IDLE the request in the port, is taken from
where it stood and executed, with nothing around it. -/
def Obligations.StepRunsTheFetchedInstruction : Prop :=
  (∀ (s : State) (v : Word), s.host.resetLine = false → s.bridge.posted = some v →
    step s = exec (decode (.cmd v)) { s with bridge := { s.bridge with posted := none } }) ∧
  (∀ (s : State) (r : Request), At .idle s → s.host.port = some r →
    step s = exec (decode (.req r)) { s with host := { s.host with port := none } })

/-- R23: the unused codes of `seq` are a fault, and no step enters one. -/
def Obligations.UnusedSeqCodesFaultAndAreNeverEntered : Prop :=
  (∀ s : State, s.host.resetLine = false → s.bridge.posted = none → 12 ≤ s.seq.toNat → step s = .fault (.unusedSeq s.seq)) ∧
  ∀ s t : State, s.seq.toNat < 12 → step s = .next t → t.seq.toNat < 12

/-- R38, R273: in IDLE with no request and no move of the host, a step does nothing. -/
def Obligations.IdleWithoutARequestDoesNothing : Prop :=
  ∀ s : State, At .idle s → s.host.port = none →
    (s.host.phase = .idle ∨ s.host.phase = .done ∨ ∃ why, s.host.phase = .failed why) → step s = .next s

/-! ### Command words -/

/-- R130, R142, R143: a READ word is delivered on every bridge that answers; the reference bridge presents the byte at the
address and flips its toggle, the constant-toggle bridge does not flip, and nothing but the bridge's two fields and the record
changes. That a busy bridge takes the word alike, and one with any data field, is the model's choice (log 25, R302, U11; log 26,
R92). -/
def Obligations.ReadCommandPresentsTheByte : Prop :=
  ∀ (a : FlashAddr) (d : Byte) (s : State), s.bridge.kind ≠ .noAnswer → ∃ b,
    exec (.read a d) s =
      .next { s with bridge := b, trace := .regWrite Config.regAddr (cmd 0#3 (a.setWidth 32) d) :: s.trace } ∧
    (s.bridge.kind = .reference ∨ s.bridge.kind = .stuckBusy →
      b = { s.bridge with dat := s.bridge.flash.read a.toNat, tog := !s.bridge.tog }) ∧
    (s.bridge.kind = .constantToggle → b = { s.bridge with dat := s.bridge.flash.read a.toNat }) ∧
    (s.bridge.kind = .oracle → b = s.bridge)

/-- R131, R142: a WRITE word commits the page buffer. Inside one 256-byte flash page byte `j` of the buffer goes to `a + j`, over
bytes not erased too, which is the model's choice (log 23); across a page boundary, as with more than 256 bytes, the span's bytes
are left open (R69, U9, log 24). Every byte outside the span reads as before; the buffer is emptied, and that a commit with nothing
loaded is not refused is the model's choice (log 23); no block register changes. That a busy bridge takes the word alike, and one
with any data field, is the model's choice (log 25, R302, U11; log 26, R92). -/
def Obligations.CommitCommandStoresThePageBuffer : Prop :=
  ∀ (a : FlashAddr) (d : Byte) (s : State), s.bridge.kind ≠ .noAnswer → ∃ b,
    exec (.write a d) s =
      .next { s with bridge := b, trace := .regWrite Config.regAddr (cmd 1#3 (a.setWidth 32) d) :: s.trace } ∧
    (s.bridge.kind = .oracle → b = s.bridge) ∧
    (s.bridge.kind ≠ .oracle →
      b = { s.bridge with flash := b.flash, pbuf := [], flashDraws := b.flashDraws } ∧
      (s.bridge.flash.wf = true → a.toNat % 256 + s.bridge.pbuf.length ≤ 256 → b.flashDraws = s.bridge.flashDraws ∧
        ∀ (j : Nat) (h : j < s.bridge.pbuf.length), b.flash.read (a.toNat + j) = s.bridge.pbuf[j]) ∧
      ∀ x : Nat, (∀ j < s.bridge.pbuf.length, x ≠ (a.toNat + j) % Config.flashBytes) →
        b.flash.read x = s.bridge.flash.read x)

/-- R132, R142: a SECTOR_ERASE word sets the 64 KiB sector that holds the address to the erased value; every byte outside the
sector reads as before; no block register changes. That a busy bridge takes the word alike, and one with any data field, is the
model's choice (log 25, R302, U11; log 26, R92). -/
def Obligations.EraseCommandErasesOneSector : Prop :=
  ∀ (a : FlashAddr) (d : Byte) (s : State), s.bridge.kind ≠ .noAnswer → ∃ b,
    exec (.sectorErase a d) s =
      .next { s with bridge := b, trace := .regWrite Config.regAddr (cmd 2#3 (a.setWidth 32) d) :: s.trace } ∧
    (s.bridge.kind = .oracle → b = s.bridge) ∧
    (s.bridge.kind ≠ .oracle →
      b = { s.bridge with flash := b.flash } ∧
      ∀ x : Nat, b.flash.read x = if x / 65536 = a.toNat / 65536 then 0xFF#8 else s.bridge.flash.read x)

/-- R134, R142: a PAGE_PROGRAM word appends its data byte to the page buffer, and nothing else changes. That it does so with 256
bytes or more already loaded too is the model's choice (log 23; U16 wants a refusal there), and so it is that a
busy bridge takes the word alike (log 25; R302 and U11 leave its effect open), and that the word's address field makes no difference
(log 26; R93 and U6 leave that open). -/
def Obligations.LoadCommandAppendsToThePageBuffer : Prop :=
  ∀ (a : FlashAddr) (d : Byte) (s : State), s.bridge.kind ≠ .noAnswer → ∃ b,
    exec (.pageProgram a d) s =
      .next { s with bridge := b, trace := .regWrite Config.regAddr (cmd 4#3 (a.setWidth 32) d) :: s.trace } ∧
    (s.bridge.kind = .oracle → b = s.bridge) ∧
    (s.bridge.kind ≠ .oracle → b = { s.bridge with pbuf := s.bridge.pbuf ++ [d] })

/-- R142: READ_STATUS and the reserved operations are delivered and change nothing but the record. That they are delivered and not
refused is the model's choice (log 4; U4 and U5 want a bridge model to refuse them), on a busy bridge too (log 25; R302, U11). -/
def Obligations.UnassignedCommandsAreOnlyDelivered : Prop :=
  ∀ (a : FlashAddr) (d : Byte) (s : State), s.bridge.kind ≠ .noAnswer →
    exec (.readStatus a d) s =
      .next { s with trace := .regWrite Config.regAddr (cmd 3#3 (a.setWidth 32) d) :: s.trace } ∧
    exec (.reserved5 a d) s =
      .next { s with trace := .regWrite Config.regAddr (cmd 5#3 (a.setWidth 32) d) :: s.trace } ∧
    exec (.reserved6 a d) s =
      .next { s with trace := .regWrite Config.regAddr (cmd 6#3 (a.setWidth 32) d) :: s.trace } ∧
    exec (.reserved7 a d) s =
      .next { s with trace := .regWrite Config.regAddr (cmd 7#3 (a.setWidth 32) d) :: s.trace }

/-- R274: on a bus whose accesses never complete, every command word and every sampling state is stuck, under the fault's
name. -/
def Obligations.UnansweredAccessesAreStuck : Prop :=
  (∀ (w : Word) (s : State), s.bridge.kind = .noAnswer → exec (decodeCmd w) s = .fault .accessNeverCompletes) ∧
  ∀ (q : Seq) (s : State), At q s → s.bridge.kind = .noAnswer → q ≠ .idle → q ≠ .respond →
    (q = .ppLoad → s.loadIndex < s.wdata.length) → step s = .fault .accessNeverCompletes

/-! ### Acceptance of requests -/

/-- R38, R155: AWAIT_NOT_BUSY starts its wait at the reading of the time base it makes; the equation says what every register
the kind has an operand for holds, and that the rest is unchanged. -/
def Obligations.AwaitNotBusyIsAccepted : Prop :=
  ∀ (timeoutMs : Word) (s : State), s.seq = Seq.idle.code → ∃ t, exec (.awaitNotBusy timeoutMs) s = .next t ∧
    s.clock.last ≤ t.t0 ∧
    { t with addr := s.addr, len := s.len, rev := s.rev, wdata := s.wdata, draws := s.draws } =
      { s with
        seq := Seq.awPoll.code, kind := 0#3, tmo := timeoutMs, rdata := [], diagIe := false, diagIw := false, t0 := t.t0
        clock := { last := t.t0, script := s.clock.script.tail }, trace := .time t.t0 :: s.trace }

/-- R38, R180: READ_BYTES makes no bridge access at acceptance; a zero count is answered at once with no data, and otherwise
the seed sample comes first exactly when no toggle has been observed. -/
def Obligations.ReadBytesIsAccepted : Prop :=
  ∀ (addr count : Word) (rev : Bool) (s : State), s.seq = Seq.idle.code → count.toNat ≤ Config.maxXfer →
    ∃ t, exec (.readBytes addr count rev) s = .next t ∧
    { t with tmo := s.tmo, wdata := s.wdata, draws := s.draws } =
      { s with
        kind := 1#3, addr := addr, len := count, rev := rev, rdata := [], diagIe := false, diagIw := false, i := 0#32
        seq := if count = 0#32 then Seq.respond.code else if s.toggleSeeded then Seq.rdCmd.code else Seq.rdSeed.code
        rsp := if count = 0#32 then some { code := .ok, info := .empty, data := [], diagIe := false, diagIw := false }
          else s.rsp }

/-- R38, R202: ERASE of an aligned address starts its block loop, or ends at once for a zero size; of any other address it ends
in an AlignmentError; neither makes a bridge access. -/
def Obligations.EraseIsAcceptedOrRaisesAlignment : Prop :=
  ∀ (addr size : Word) (s : State), s.seq = Seq.idle.code → ∃ t, exec (.erase addr size) s = .next t ∧
    (addr.toNat % 65536 = 0 →
      { t with tmo := s.tmo, rev := s.rev, wdata := s.wdata, draws := s.draws } =
        { s with
          kind := 2#3, addr := addr, len := size, rdata := [], diagIe := false, diagIw := false, k := 0#32
          nblk := BitVec.ofNat 32 ((size.toNat + 65535) / 65536)
          seq := if size = 0#32 then Seq.respond.code else Seq.erCmd.code
          rsp := if size = 0#32 then some { code := .ok, info := .empty, data := [], diagIe := false, diagIw := false }
            else s.rsp }) ∧
    (addr.toNat % 65536 ≠ 0 →
      { t with tmo := s.tmo, rev := s.rev, wdata := s.wdata, draws := s.draws } =
        { s with
          kind := 2#3, addr := addr, len := size, rdata := [], diagIe := false, diagIw := false, seq := Seq.respond.code
          rsp := some { code := .alignmentError, info := .alignment .eraseAddrUnaligned addr size, data := [], diagIe := false,
                        diagIw := false } })

/-- R38, R207: PAGE_PROGRAM starts its first page of at most 256 bytes, or ends at once for no data; it has no alignment
rule. -/
def Obligations.PageProgramIsAccepted : Prop :=
  ∀ (addr len : Word) (data : List Byte) (s : State), s.seq = Seq.idle.code → len.toNat = data.length →
    data.length ≤ Config.maxXfer → ∃ t, exec (.pageProgramReq addr len data) s = .next t ∧
    (len = 0#32 → { t with tmo := s.tmo, rev := s.rev, draws := s.draws } =
      { s with
        kind := 3#3, addr := addr, len := len, wdata := data, rdata := [], diagIe := false, diagIw := false
        seq := Seq.respond.code
        rsp := some { code := .ok, info := .empty, data := [], diagIe := false, diagIw := false } }) ∧
    (len ≠ 0#32 → { t with tmo := s.tmo, rev := s.rev, draws := s.draws } =
      { s with
        kind := 3#3, addr := addr, len := len, wdata := data, rdata := [], diagIe := false, diagIw := false
        seq := Seq.ppLoad.code, pbase := 0#32, plen := BitVec.ofNat 9 (min 256 len.toNat), j := 0#9 })

/-- R38, R213, R264: WRITE checks the address before the length, each with its own AlignmentError and no bridge access, and
otherwise starts with the erase of one block, whatever the length. -/
def Obligations.WriteIsAcceptedOrRaisesAlignment : Prop :=
  ∀ (addr len : Word) (data : List Byte) (rev : Bool) (s : State), s.seq = Seq.idle.code → len.toNat = data.length →
    data.length ≤ Config.maxXfer → ∃ t, exec (.writeReq addr len data rev) s = .next t ∧
    { t with tmo := s.tmo, draws := s.draws, nblk := s.nblk, k := s.k, seq := s.seq, rsp := s.rsp } =
      { s with
        kind := 4#3, addr := addr, len := len, rev := rev, wdata := data, rdata := [], diagIe := false, diagIw := false } ∧
    (addr.toNat % 65536 ≠ 0 → t.seq = Seq.respond.code ∧ t.nblk = s.nblk ∧ t.k = s.k ∧
      t.rsp = some { code := .alignmentError, info := .alignment .writeAddrUnaligned addr len, data := [], diagIe := false,
                     diagIw := false }) ∧
    (addr.toNat % 65536 = 0 → 65536 < data.length → t.seq = Seq.respond.code ∧ t.nblk = s.nblk ∧ t.k = s.k ∧
      t.rsp = some { code := .alignmentError, info := .alignment .writeLenTooLarge addr len, data := [], diagIe := false,
                     diagIw := false }) ∧
    (addr.toNat % 65536 = 0 → data.length ≤ 65536 → t.seq = Seq.erCmd.code ∧ t.nblk = 1#32 ∧ t.k = 0#32 ∧ t.rsp = s.rsp)

/-- R101: request kinds 5, 6 and 7 are refused in every state. -/
def Obligations.ReservedKindsAreRefused : Prop :=
  ∀ s : State, exec .reqReserved5 s = .refused (.reservedKind 5#3) ∧ exec .reqReserved6 s = .refused (.reservedKind 6#3) ∧
    exec .reqReserved7 s = .refused (.reservedKind 7#3)

/-- R38: in IDLE, an instruction answers a next state exactly when it is well-formed (its kind is defined, its count or data
fits MAX_XFER, its declared length is the data's), on a bridge that answers. Every command word is well-formed; that READ_STATUS
and operations 5 to 7 answer a next state too is the model's choice (log 4; U4 and U5 want a bridge model to refuse them). -/
def Obligations.IdleAcceptsExactlyTheWellFormed : Prop :=
  ∀ (i : Instr) (s : State), s.seq = Seq.idle.code → s.bridge.kind ≠ .noAnswer → ((∃ t, exec i s = .next t) ↔ i.wf = true)

/-- R38, R251: no request is accepted outside IDLE. -/
def Obligations.NoRequestIsAcceptedOutsideIdle : Prop :=
  ∀ (r : Request) (s t : State), s.seq ≠ Seq.idle.code → exec (decodeReq r) s ≠ .next t

/-! ### The poll states -/

/-- R152, R155: one poll of AW_POLL: the condition before the deadline on the same sample. -/
def Obligations.AwPollStep : Prop :=
  ∀ s : State, At .awPoll s → s.bridge.kind ≠ .noAnswer →
    step s = .next (
      if s.sample.getLsbD 16 = false then s.sampled.timed.respond .ok .empty []
      else if s.tmo.toNat ≤ s.sampled.now - s.t0 then
        s.sampled.timed.respond .timeout (.timeout .await (s.sampled.now - s.t0) 0#32) []
      else s.sampled.timed)

/-- R181: the seed sample gives the synchronizer its toggle, its data is not used, and no time is read. -/
def Obligations.RdSeedStep : Prop :=
  ∀ s : State, At .rdSeed s → s.bridge.kind ≠ .noAnswer →
    step s = .next { s.sampled with lastToggle := s.sample.getLsbD 19, toggleSeeded := true, seq := Seq.rdCmd.code }

/-- R26, R65, R150: what one sample and one reading of the time base change: the sticky flags take bits 18 and 17, both are put
on record, a scripted answer is used up, the time does not go back, and every other register keeps its value. -/
def Obligations.SampleAndTimeFrame : Prop :=
  ∀ s : State,
    s.sampled = { s with
      diagIe := s.diagIe || s.sample.getLsbD 18, diagIw := s.diagIw || s.sample.getLsbD 17
      bridge := { s.bridge with script := s.bridge.script.tail }
      trace := .regRead Config.regAddr s.sample :: s.trace } ∧
    s.timed = { s with
      clock := { last := s.now, script := s.clock.script.tail }, trace := .time s.now :: s.trace } ∧
    s.clock.last ≤ s.now ∧
    (s.bridge.kind = .reference → s.bridge.script = [] →
      s.sample = (if s.bridge.tog then 0x80000#32 else 0#32) ||| s.bridge.dat.setWidth 32)

/-- R182: RD_CMD writes the READ word for byte `r.i`, reduced to 21 bits, and starts the toggle wait after the access. -/
def Obligations.RdCmdStep : Prop :=
  ∀ s : State, At .rdCmd s → s.bridge.kind ≠ .noAnswer → ∃ u,
    exec (.read ((s.addr + s.i).setWidth 21) 0#8) s = .next u ∧
    u.trace = .regWrite Config.regAddr (cmd 0#3 (s.addr + s.i) 0#8) :: s.trace ∧
    step s = .next { u.timed with t0 := u.now, seq := Seq.rdToggle.code }

/-- R183, R185: RD_TOGGLE accepts a byte only at an edge against the stored toggle, even past the deadline; on a timeout the
synchronizer is not changed and no data is returned. -/
def Obligations.RdToggleStep : Prop :=
  ∀ s : State, At .rdToggle s → s.bridge.kind ≠ .noAnswer →
    step s = .next (
      if s.sample.getLsbD 19 ≠ s.lastToggle then
        { s.sampled.timed with
          lastToggle := s.sample.getLsbD 19, latched := s.sample.extractLsb' 0 8, t0 := s.sampled.now
          seq := Seq.rdBusy.code }
      else if 100 ≤ s.sampled.now - s.t0 then
        s.sampled.timed.respond .timeout (.timeout .toggle (s.sampled.now - s.t0) s.i) []
      else s.sampled.timed)

/-- R184, R187: RD_BUSY delivers the latched byte, reversed when `r.rev = 1`, once busy is clear, and moves on or ends. -/
def Obligations.RdBusyStep : Prop :=
  ∀ s : State, At .rdBusy s → s.bridge.kind ≠ .noAnswer →
    step s = .next (
      if s.sample.getLsbD 16 = false then
        let u := { s.sampled.timed with
          rdata := s.rdata ++ [if s.rev then rom s.latched else s.latched], i := s.i + 1#32 }
        if s.i.toNat + 1 < s.len.toNat then { u with seq := Seq.rdCmd.code } else u.respond .ok .empty u.rdata
      else if 100 ≤ s.sampled.now - s.t0 then
        s.sampled.timed.respond .timeout (.timeout .readBusy (s.sampled.now - s.t0) s.i) []
      else s.sampled.timed)

/-- R203: ER_CMD writes the SECTOR_ERASE word of block `r.k` and starts its busy wait after the access. -/
def Obligations.ErCmdStep : Prop :=
  ∀ s : State, At .erCmd s → s.bridge.kind ≠ .noAnswer → ∃ u,
    exec (.sectorErase ((s.addr + 65536#32 * s.k).setWidth 21) 0#8) s = .next u ∧
    u.trace = .regWrite Config.regAddr (cmd 2#3 (s.addr + 65536#32 * s.k) 0#8) :: s.trace ∧
    step s = .next { u.timed with t0 := u.now, seq := Seq.erBusy.code }

/-- R204, R205: after an erased block comes the next block, the program part of a WRITE with data, or the end; a timeout reports
the failing block's address, and leaves the bytes of its sector open (U10, log 24) and every other byte as it was. -/
def Obligations.ErBusyStep : Prop :=
  ∀ s : State, At .erBusy s → s.bridge.kind ≠ .noAnswer → ∃ b : Bridge,
    b = { s.bridge with script := s.bridge.script.tail, flash := b.flash, flashDraws := b.flashDraws } ∧
    (s.bridge.kind = .oracle → b.flash = s.bridge.flash ∧ b.flashDraws = s.bridge.flashDraws) ∧
    (∀ x : Nat, x / 65536 ≠ (s.addr + 65536#32 * s.k).toNat % 2 ^ 21 / 65536 → b.flash.read x = s.bridge.flash.read x) ∧
    step s = .next (
      if s.sample.getLsbD 16 = false then
        let u := { s.sampled.timed with k := s.k + 1#32 }
        if s.k.toNat + 1 < s.nblk.toNat then { u with seq := Seq.erCmd.code }
        else if s.kind = 4#3 ∧ 0 < s.len.toNat then
          { u with
            pbase := 0#32, plen := BitVec.ofNat 9 (min 256 s.len.toNat), j := 0#9, seq := Seq.ppLoad.code }
        else u.respond .ok .empty []
      else if 2500 ≤ s.sampled.now - s.t0 then
        { s.sampled.timed with bridge := b }.respond .timeout
          (.timeout .eraseBusy (s.sampled.now - s.t0) ((s.addr + 65536#32 * s.k) &&& 0x1FFFFF#32)) []
      else s.sampled.timed)

/-- R208: PP_LOAD writes the load word of the next byte of the page, through the ROM only in a WRITE with `rev = 1`; no time is
read; after the last byte comes the commit. -/
def Obligations.PpLoadStep : Prop :=
  ∀ (s : State) (w : Byte), At .ppLoad s → s.bridge.kind ≠ .noAnswer →
    s.wdata[s.pbase.toNat + s.j.toNat]? = some w → ∃ u,
    exec (.pageProgram 0#21 (if s.kind = 4#3 ∧ s.rev = true then rom w else w)) s = .next u ∧
    u.trace = .regWrite Config.regAddr (cmd 4#3 0#32 (if s.kind = 4#3 ∧ s.rev = true then rom w else w)) :: s.trace ∧
    step s = .next { u with
      j := s.j + 1#9, seq := if s.j + 1#9 = s.plen then Seq.ppCommit.code else Seq.ppLoad.code }

/-- R209: PP_COMMIT writes the WRITE word with the page's base address and starts the page's busy wait after the access. -/
def Obligations.PpCommitStep : Prop :=
  ∀ s : State, At .ppCommit s → s.bridge.kind ≠ .noAnswer → ∃ u,
    exec (.write ((s.addr + s.pbase).setWidth 21) 0#8) s = .next u ∧
    u.trace = .regWrite Config.regAddr (cmd 1#3 (s.addr + s.pbase) 0#8) :: s.trace ∧
    step s = .next { u.timed with t0 := u.now, seq := Seq.ppBusy.code }

/-- R200, R210, R211: after a programmed page comes the next page or the end; a timeout reports the failing page's offset, and
leaves the bytes of its span open (U10, log 24) and every other byte as it was. That the end of the loop tests `r.pbase + 256` as an
exact natural, where a 32-bit sum could wrap, is the model's reading of R200 (log 13). -/
def Obligations.PpBusyStep : Prop :=
  ∀ s : State, At .ppBusy s → s.bridge.kind ≠ .noAnswer → ∃ b : Bridge,
    b = { s.bridge with script := s.bridge.script.tail, flash := b.flash, flashDraws := b.flashDraws } ∧
    (s.bridge.kind = .oracle → b.flash = s.bridge.flash ∧ b.flashDraws = s.bridge.flashDraws) ∧
    (∀ x : Nat, (∀ j < s.plen.toNat, x ≠ ((s.addr + s.pbase).toNat % 2 ^ 21 + j) % 2 ^ 21) →
      b.flash.read x = s.bridge.flash.read x) ∧
    step s = .next (
      if s.sample.getLsbD 16 = false then
        if s.pbase.toNat + 256 < s.len.toNat then
          { s.sampled.timed with
            pbase := s.pbase + 256#32
            plen := BitVec.ofNat 9 (min 256 (s.len.toNat - (s.pbase + 256#32).toNat)), j := 0#9, seq := Seq.ppLoad.code }
        else { s.sampled.timed with pbase := s.pbase + 256#32 }.respond .ok .empty []
      else if 2500 ≤ s.sampled.now - s.t0 then
        { s.sampled.timed with bridge := b }.respond .timeout (.timeout .programBusy (s.sampled.now - s.t0) s.pbase) []
      else s.sampled.timed)

/-- R39: in RESPOND the response is held until the host takes it, and taking it makes no bridge access and returns to IDLE.
That the taken response leaves `rsp` empty is the model's reading (log 11). -/
def Obligations.RespondHoldsUntilTaken : Prop :=
  (∀ s : State, At .respond s → s.host.takes = false → step s = .next s) ∧
  ∀ (s : State) (r : Response), At .respond s → s.host.takes = true → s.rsp = some r → ∃ h,
    step s = .next { s with seq := Seq.idle.code, rsp := none, host := h } ∧ h.last = some r ∧
    h.diagLog = (r.diagIe, r.diagIw) :: s.host.diagLog

/-! ### The whole machine -/

/-- R21, R22, R200, R263: every step keeps the block's invariant. That no response stands in `rsp` in IDLE is the model's reading
(log 11). -/
def Obligations.EveryStepKeepsTheInvariant : Prop := ∀ s t : State, Inv s → step s = .next t → Inv t

/-- R34, R63: a step adds at most one bridge access, at the bridge register, and reads the time base at most once, after its
access. -/
def Obligations.AStepTouchesTheBusAtMostOnce : Prop :=
  ∀ s t : State, step s = .next t → ∃ es, Added s t es ∧
    (es = [] ∨ (∃ e, es = [e]) ∨ ∃ x e, es = [.time x, e] ∧ e.isAccess = true) ∧
    (∀ a v, BusEvent.regWrite a v ∈ es → a = Config.asmiBase + 0x8) ∧
    ∀ a v, BusEvent.regRead a v ∈ es → a = Config.asmiBase + 0x8

/-- R99, R92, R93, R98: every command word the block itself writes is one of the words R99 lists. -/
def Obligations.OnlyListedWordsAreEmitted : Prop :=
  ∀ s t : State, Inv s → s.bridge.posted = none → step s = .next t → ∃ es, Added s t es ∧
    ∀ a v, BusEvent.regWrite a v ∈ es → (decodeCmd v).emittable = true

/-- R25, R186: outside RD_SEED and RD_TOGGLE no step writes the synchronizer, but for a reset: by the reset line, or by the
host as it starts a session (R251). -/
def Obligations.OnlySeedAndEdgeWriteTheSynchronizer : Prop :=
  ∀ s t : State, step s = .next t → s.host.resetLine = false → s.seq ≠ Seq.rdSeed.code → s.seq ≠ Seq.rdToggle.code →
    (s.seq = Seq.idle.code → s.host.port = none → s.host.phase ≠ .start) →
    t.lastToggle = s.lastToggle ∧ t.toggleSeeded = s.toggleSeeded

/-- R150: the time base never goes back. -/
def Obligations.TimeNeverGoesBack : Prop := ∀ s t : State, step s = .next t → s.clock.last ≤ t.clock.last

/-- R9, R310, R311: a Timeout response comes only at or after its wait's deadline, and reports the elapsed time of the deciding
sample. -/
def Obligations.NoTimeoutBeforeItsDeadline : Prop :=
  ∀ (s t : State) (r : Response) (w : Wait) (e : Nat) (p : Word), s.rsp = none → step s = .next t → t.rsp = some r →
    r.info = .timeout w e p →
    r.code = .timeout ∧ e = t.clock.last - s.t0 ∧
    (match w with
      | .await => s.tmo.toNat
      | .toggle => 100
      | .readBusy => 100
      | .eraseBusy => 2500
      | .programBusy => 2500) ≤ e

/-- R302: a request that ends OK in a step with a bridge access ends on a sample with busy = 0. -/
def Obligations.AnOkEndShowsNotBusy : Prop :=
  ∀ (s t : State) (r : Response) (es : List BusEvent), s.rsp = none → s.bridge.posted = none → step s = .next t →
    t.rsp = some r → r.code = .ok → Added s t es →
    es = [] ∨ ∃ x a v, es = [.time x, .regRead a v] ∧ v.getLsbD 16 = false

/-- R26, R96: the undefined bits 31:20, the status field and the two diagnostic bits of a sample change nothing but the flags
(and what the trace and the response record of them): two states that differ only there step alike. -/
def Obligations.IgnoredStatusBitsChangeNoResult : Prop :=
  ∀ (q : Seq) (s : State) (v w : Word) (rest : List Word) (d : Nat) (ds : List Nat),
    q ∈ [Seq.awPoll, Seq.rdSeed, Seq.rdToggle, Seq.rdBusy, Seq.erBusy, Seq.ppBusy] → At q s →
    s.bridge.script = v :: rest → s.clock.script = d :: ds → v &&& 0x000900FF#32 = w &&& 0x000900FF#32 →
    s.bridge.kind ≠ .noAnswer →
    ∃ t u, step s = .next t ∧ step { s with bridge := { s.bridge with script := w :: rest } } = .next u ∧
      { t with diagIe := u.diagIe, diagIw := u.diagIw, trace := u.trace, rsp := u.rsp } = u ∧
      t.rsp.map (fun r => (r.code, r.info, r.data)) = u.rsp.map (fun r => (r.code, r.info, r.data))

/-- R151, R152, R156: AWAIT_NOT_BUSY never outlives a time base that reaches its deadline: if the next readings bring the
elapsed time to the operand, the request has ended by the last of them. -/
def Obligations.AwaitEndsWhenTimePassesItsDeadline : Prop :=
  ∀ s : State, At .awPoll s → s.bridge.kind ≠ .noAnswer → s.clock.script ≠ [] →
    s.t0 + s.tmo.toNat ≤ s.clock.last + s.clock.script.sum →
    ∃ n t, n ≤ s.clock.script.length ∧ Sys2Proof.core.run n s = .next t ∧ t.seq = Seq.respond.code ∧ t.rsp.isSome = true

/-- R135, R183, R184, R300: under the bridge contract, as log 20 reads R135, a READ_BYTES request in phase with the bridge stays
in phase: its READ commands have a known effect, and every byte it has accepted, and the data of its OK response, are the flash's
bytes at its addresses. The first READ needs a bridge that was not busy at its last sample (U11). -/
def Obligations.ContractBridgeReadsAreTrue : Prop :=
  ∀ (q : Seq) (s t : State) (c : Contract) (es : List BusEvent),
    q ∈ [Seq.rdSeed, Seq.rdCmd, Seq.rdToggle, Seq.rdBusy] → At q s → InPhase s c →
    (q = .rdCmd → s.i = 0#32 → c.busy = false) → step s = .next t → Added s t es → c.Keeps es.reverse →
    ∃ c', c.afterAll es.reverse = some c' ∧ InPhase t c' ∧ c'.flash = c.flash

/-- R135, R140: the reference bridge keeps the contract, as log 20 reads R135, at every step of the block, and the block's steps
never leave what the contract gives an effect: a bridge that mirrors the contract allows what it shows, mirrors the contract
after it, and stays at the same point as the block. -/
def Obligations.ReferenceBridgeKeepsTheContract : Prop :=
  ∀ (s t : State) (c : Contract) (es : List BusEvent), s.bridge.kind = .reference → s.bridge.script = [] →
    s.bridge.posted = none → s.host.resetLine = false → Inv s → Mirrors s.bridge c → InStep s c → step s = .next t →
    Added s t es →
    c.Keeps es.reverse ∧ ∃ c', c.afterAll es.reverse = some c' ∧ Mirrors t.bridge c' ∧ InStep t c'

/-- R189: on the reference bridge READ_BYTES returns the flash bytes, with three accesses a byte and one more for the seed when
the synchronizer holds no toggle, and leaves the flash alone. -/
def Obligations.ReadBytesOnTheReferenceBridge : Prop :=
  ∀ (addr count : Word) (rev : Bool) (s : State), At .idle s → s.host.port =
      some { emptyReq 1#3 with addr := addr, len := count, reverse := rev } →
    s.bridge.kind = .reference → s.bridge.script = [] → (s.toggleSeeded = true → s.lastToggle = s.bridge.tog) →
    0 < count.toNat → count.toNat ≤ Config.maxXfer →
    let seed := if s.toggleSeeded then 0 else 1
    ∃ t, Sys2Proof.core.run (1 + seed + 3 * count.toNat) s = .next t ∧ t.seq = Seq.respond.code ∧
      t.rsp = some { code := .ok, info := .empty, data := readResult s.bridge.flash addr rev count.toNat, diagIe := false,
                     diagIw := false } ∧
      accesses t = accesses s + seed + 3 * count.toNat ∧ t.bridge.flash = s.bridge.flash

/-- R200, R201, R206: on the reference bridge ERASE erases exactly the sectors of its blocks, modulo the flash, with two
accesses a block. -/
def Obligations.EraseOnTheReferenceBridge : Prop :=
  ∀ (addr size : Word) (s : State), At .idle s → s.host.port = some { emptyReq 2#3 with addr := addr, len := size } →
    s.bridge.kind = .reference → s.bridge.script = [] → addr.toNat % 65536 = 0 →
    let n := (size.toNat + 65535) / 65536
    ∃ t, Sys2Proof.core.run (1 + 2 * n) s = .next t ∧ t.seq = Seq.respond.code ∧
      t.rsp = some { code := .ok, info := .empty, data := [], diagIe := false, diagIw := false } ∧
      accesses t = accesses s + 2 * n ∧
      ∀ x < Config.flashBytes, t.bridge.flash.read x =
        if ∃ k < n, x / 65536 = (addr.toNat / 65536 + k) % 32 then 0xFF#8 else s.bridge.flash.read x

/-- R200, R208, R209, R210, R212: on the reference bridge one page of PAGE_PROGRAM or WRITE, from its first load on, takes one
access a byte, one for the commit and one for the wait, and goes on to the next page or ends OK. Inside one 256-byte flash page it
stores its bytes (through the ROM in a WRITE with `rev = 1`) at the page's masked address, over bytes not erased as R142 says
(log 23); across a page boundary its span is left open (R69, log 24). Every other byte of the flash reads as before. That the end of
the loop tests `r.pbase + 256` as an exact natural is the model's reading of R200 (log 13). -/
def Obligations.OnePageOnTheReferenceBridge : Prop :=
  ∀ s : State, At .ppLoad s → Programming s → s.j = 0#9 → s.bridge.kind = .reference → s.bridge.script = [] →
    s.bridge.pbuf = [] →
    ∃ t, Sys2Proof.core.run (s.plen.toNat + 2) s = .next t ∧ accesses t = accesses s + s.plen.toNat + 2 ∧
      t.bridge.pbuf = [] ∧
      ((s.addr + s.pbase).toNat % 256 + s.plen.toNat ≤ 256 →
        t.bridge.flash = s.bridge.flash.program ((s.addr + s.pbase).setWidth 21).toNat
          (((s.wdata.drop s.pbase.toNat).take s.plen.toNat).map fun w =>
            if s.kind = 4#3 ∧ s.rev = true then rom w else w)) ∧
      (∀ x : Nat, (∀ j < s.plen.toNat, x ≠ ((s.addr + s.pbase).toNat % 2 ^ 21 + j) % 2 ^ 21) →
        t.bridge.flash.read x = s.bridge.flash.read x) ∧
      (s.pbase.toNat + 256 < s.len.toNat → t.seq = Seq.ppLoad.code ∧ t.pbase = s.pbase + 256#32 ∧ t.j = 0#9 ∧
        t.rsp = none) ∧
      (s.len.toNat ≤ s.pbase.toNat + 256 → t.seq = Seq.respond.code ∧
        t.rsp = some { code := .ok, info := .empty, data := [], diagIe := s.diagIe, diagIw := s.diagIw })

/-! ### The host agent -/

/-- R240, R242, R251: WRITE_RPD of more than 950,005 bytes fails before any request; otherwise an operation that starts a
session resets the block and presents AWAIT_NOT_BUSY 2500 first. No step of the start touches the bridge. -/
def Obligations.TheHostChecksCapacityThenPrewaits : Prop :=
  ∀ s : State, At .idle s → s.host.port = none → s.host.phase = .start →
    (s.host.op = .writeRpd → 950005 < s.host.fileLen → ∃ t, step s = .next t ∧ t.host.phase = .failed .capacity ∧
      t.host.port = none ∧ t.trace = s.trace ∧ t.bridge = s.bridge) ∧
    (¬ (s.host.op = .writeRpd ∧ 950005 < s.host.fileLen) → s.host.session = false → ∃ t, step s = .next t ∧
      t.host.port = some { emptyReq 0#3 with timeoutMs := 2500#32 } ∧ t.host.phase = .prewaiting ∧
      t.host.session = true ∧ t.seq = Seq.idle.code ∧ t.toggleSeeded = false ∧ t.rsp = none ∧ t.trace = s.trace ∧
      t.bridge = s.bridge)

/-- R241, R243: a chunk of WRITE_RPD is presented as one WRITE of the file's bytes, reversed, at BASE_OFFSET plus the position,
which is 64 KiB-aligned; a short read fails the operation; and past the last byte it is done with its output lines (R245). That
these are steps of the machine in IDLE, and that a short read is a file shorter than its claimed length, are the model's choices
(log 12, log 19). -/
def Obligations.TheHostWritesChunkByChunk : Prop :=
  ∀ s : State, At .idle s → s.host.port = none → s.host.phase = .chunk → s.host.op = .writeRpd →
    let n := min 65536 (s.host.fileLen - s.host.pos)
    let bytes := (s.host.file.drop s.host.pos).take n
    (s.host.pos < s.host.fileLen → bytes.length = n → ∃ t, step s = .next t ∧
      t.host.phase = .writing ∧ t.host.port = some { emptyReq 4#3 with
        addr := s.host.image.base + BitVec.ofNat 32 s.host.pos, len := BitVec.ofNat 32 n, reverse := true, data := bytes } ∧
      (s.host.pos % 65536 = 0 → (s.host.image.base + BitVec.ofNat 32 s.host.pos).toNat % 65536 = 0)) ∧
    (s.host.pos < s.host.fileLen → bytes.length < n → ∃ t, step s = .next t ∧ t.host.phase = .failed .io ∧
      t.host.port = none) ∧
    (s.host.fileLen ≤ s.host.pos → ∃ t, step s = .next t ∧ t.host.phase = .done ∧ t.host.port = none ∧
      t.host.out = s.host.out ++
        .rpdBytesWritten s.host.fileLen :: (if s.host.verify then [HostLine.verifyOk] else []))

/-- R244: a record stands in the mismatches of a verify read exactly where the chunk's byte and the byte read differ, with the
file offset, the flash address and both bytes. -/
def Obligations.VerifyRecordsEveryMismatch : Prop :=
  ∀ (h : HostState) (data : List Byte) (m : Mismatch), data.length = h.chunk.length →
    (m ∈ h.mismatches data ↔ ∃ j, h.chunk[j]? = some m.expected ∧ data[j]? = some m.actual ∧ m.expected ≠ m.actual ∧
      m.fileOffset = h.pos + j ∧ m.flashAddress = h.image.base.toNat + h.pos + j)

/-- R246, R241: a chunk of READ_RPD is presented as one READ_BYTES, reversed, at BASE_OFFSET plus the position; an OK response's
data are appended to the destination file and the next chunk follows; a write that does not fit or a failed request ends the
operation with the file as it was; and past the last byte it is done with its output line. -/
def Obligations.TheHostReadsChunkByChunk : Prop :=
  ∀ s : State, s.host.op = .readRpd →
    let n := min 65536 (950005 - s.host.pos)
    (At .idle s → s.host.port = none → s.host.phase = .chunk →
      (s.host.pos < 950005 → ∃ t, step s = .next t ∧ t.host.phase = .reading ∧ t.host.port = some { emptyReq 1#3 with
        addr := s.host.image.base + BitVec.ofNat 32 s.host.pos, len := BitVec.ofNat 32 n, reverse := true }) ∧
      (950005 ≤ s.host.pos → ∃ t, step s = .next t ∧ t.host.phase = .done ∧ t.host.port = none ∧
        t.host.out = s.host.out ++ [.rpdBytesRead 950005])) ∧
    ∀ r : Response, At .respond s → s.host.takes = true → s.rsp = some r → s.host.phase = .reading →
      (r.code = .ok → (∀ room, s.host.destRoom = some room → r.data.length ≤ room) → ∃ t, step s = .next t ∧
        t.host.dest = s.host.dest ++ r.data ∧ t.host.destRoom = s.host.destRoom.map (· - r.data.length) ∧
        t.host.pos = s.host.pos + n ∧ t.host.phase = .chunk) ∧
      (r.code = .ok → ∀ room, s.host.destRoom = some room → room < r.data.length → ∃ t, step s = .next t ∧
        t.host.dest = s.host.dest ∧ t.host.phase = .failed .io) ∧
      (r.code ≠ .ok → ∃ t, step s = .next t ∧ t.host.dest = s.host.dest ∧ t.host.phase = .failed (.response r))

/-- R39, R240, R243, R244, R249: an OK response is kept, its diagnostic flags are logged and fail nothing, and the host moves on:
from PREWAIT to the first chunk, from a chunk written to its verify read or the next chunk, from a verify read to the next chunk
or a failure with the chunk's mismatches. That the taken response leaves `rsp` empty is the model's reading (log 11). -/
def Obligations.AnOkResponseMovesTheHostOn : Prop :=
  ∀ s : State,
    (∀ r : Response, At .respond s → s.host.takes = true → s.rsp = some r → r.code = .ok → ∃ t, step s = .next t ∧
      t.seq = Seq.idle.code ∧ t.rsp = none ∧ t.host.last = some r ∧
      t.host.diagLog = (r.diagIe, r.diagIw) :: s.host.diagLog ∧
      (s.host.phase = .prewaiting → t.host.pos = s.host.pos ∧
        t.host.phase = if s.host.op = .prewait then .done else .chunk) ∧
      (s.host.phase = .writing → s.host.verify = true → t.host.pos = s.host.pos ∧ t.host.phase = .readback) ∧
      (s.host.phase = .writing → s.host.verify = false →
        t.host.pos = s.host.pos + s.host.chunkLen ∧ t.host.phase = .chunk) ∧
      (s.host.phase = .verifying → s.host.mismatches r.data = [] →
        t.host.pos = s.host.pos + s.host.chunkLen ∧ t.host.phase = .chunk) ∧
      (s.host.phase = .verifying → s.host.mismatches r.data ≠ [] →
        t.host.phase = .failed (.verifyMismatch (s.host.mismatches r.data)) ∧ t.host.session = false)) ∧
    (At .idle s → s.host.port = none → s.host.phase = .readback → ∃ t, step s = .next t ∧ t.host.phase = .verifying ∧
      t.host.port = some { emptyReq 1#3 with
        addr := s.host.image.base + BitVec.ofNat 32 s.host.pos, len := BitVec.ofNat 32 s.host.chunkLen, reverse := true })

/-- R250, R251: a Timeout response that the host takes ends the session in every phase: a request not yet accepted is withdrawn, an
operation under way fails with the response, and the host presents no further request, unless an operation waits to start a
session of its own. -/
def Obligations.ATimeoutEndsTheSession : Prop :=
  ∀ (s : State) (r : Response), At .respond s → s.host.takes = true → s.rsp = some r → r.code = .timeout →
    ∃ t, step s = .next t ∧ t.host.session = false ∧ t.host.port = none ∧
      (s.host.phase ∈ [HostPhase.prewaiting, .chunk, .writing, .readback, .verifying, .reading] →
        t.host.phase = .failed (.response r)) ∧
      (s.host.phase = .start → t.host.phase = .start) ∧
      (s.host.phase ≠ .start → step t = .next t)
end

