-- ==== Sys2Proof/Laws/State.lean ====
section
/-! SUPPORT. One lemma per field per named update of the state, each true by definition, so that no proof unfolds an update. -/

namespace Sys2Proof.Machine

variable (s : State)

@[simp] theorem State.respondOk_eq (d : List Byte) : s.respondOk d = s.respond .ok .empty d := rfl
@[simp] theorem State.raise_eq (c : RspCode) (n : Info) : s.raise c n = s.respond c n [] := rfl
@[simp] theorem State.raiseTimeout_eq (w : Wait) (e : Nat) (p : Word) :
    s.raiseTimeout w e p = s.respond .timeout (.timeout w e p) [] := rfl
@[simp] theorem State.raiseAlignment_eq (c : Cause) :
    s.raiseAlignment c = s.respond .alignmentError (.alignment c s.addr s.len) [] := rfl

@[simp] theorem State.recordDiag_seq (v : Word) : (s.recordDiag v).seq = s.seq := rfl
@[simp] theorem State.recordDiag_kind (v : Word) : (s.recordDiag v).kind = s.kind := rfl
@[simp] theorem State.recordDiag_addr (v : Word) : (s.recordDiag v).addr = s.addr := rfl
@[simp] theorem State.recordDiag_len (v : Word) : (s.recordDiag v).len = s.len := rfl
@[simp] theorem State.recordDiag_rev (v : Word) : (s.recordDiag v).rev = s.rev := rfl
@[simp] theorem State.recordDiag_tmo (v : Word) : (s.recordDiag v).tmo = s.tmo := rfl
@[simp] theorem State.recordDiag_wdata (v : Word) : (s.recordDiag v).wdata = s.wdata := rfl
@[simp] theorem State.recordDiag_rdata (v : Word) : (s.recordDiag v).rdata = s.rdata := rfl
@[simp] theorem State.recordDiag_i (v : Word) : (s.recordDiag v).i = s.i := rfl
@[simp] theorem State.recordDiag_k (v : Word) : (s.recordDiag v).k = s.k := rfl
@[simp] theorem State.recordDiag_nblk (v : Word) : (s.recordDiag v).nblk = s.nblk := rfl
@[simp] theorem State.recordDiag_pbase (v : Word) : (s.recordDiag v).pbase = s.pbase := rfl
@[simp] theorem State.recordDiag_plen (v : Word) : (s.recordDiag v).plen = s.plen := rfl
@[simp] theorem State.recordDiag_j (v : Word) : (s.recordDiag v).j = s.j := rfl
@[simp] theorem State.recordDiag_t0 (v : Word) : (s.recordDiag v).t0 = s.t0 := rfl
@[simp] theorem State.recordDiag_latched (v : Word) : (s.recordDiag v).latched = s.latched := rfl
@[simp] theorem State.recordDiag_lastToggle (v : Word) : (s.recordDiag v).lastToggle = s.lastToggle := rfl
@[simp] theorem State.recordDiag_toggleSeeded (v : Word) : (s.recordDiag v).toggleSeeded = s.toggleSeeded := rfl
@[simp] theorem State.recordDiag_diagIe (v : Word) : (s.recordDiag v).diagIe = (s.diagIe || stIllegalErase v) := rfl
@[simp] theorem State.recordDiag_diagIw (v : Word) : (s.recordDiag v).diagIw = (s.diagIw || stIllegalWrite v) := rfl
@[simp] theorem State.recordDiag_rsp (v : Word) : (s.recordDiag v).rsp = s.rsp := rfl
@[simp] theorem State.recordDiag_draws (v : Word) : (s.recordDiag v).draws = s.draws := rfl
@[simp] theorem State.recordDiag_bridge (v : Word) : (s.recordDiag v).bridge = s.bridge := rfl
@[simp] theorem State.recordDiag_clock (v : Word) : (s.recordDiag v).clock = s.clock := rfl
@[simp] theorem State.recordDiag_trace (v : Word) : (s.recordDiag v).trace = s.trace := rfl
@[simp] theorem State.recordDiag_host (v : Word) : (s.recordDiag v).host = s.host := rfl

@[simp] theorem State.clearDiag_seq : s.clearDiag.seq = s.seq := rfl
@[simp] theorem State.clearDiag_kind : s.clearDiag.kind = s.kind := rfl
@[simp] theorem State.clearDiag_addr : s.clearDiag.addr = s.addr := rfl
@[simp] theorem State.clearDiag_len : s.clearDiag.len = s.len := rfl
@[simp] theorem State.clearDiag_rev : s.clearDiag.rev = s.rev := rfl
@[simp] theorem State.clearDiag_tmo : s.clearDiag.tmo = s.tmo := rfl
@[simp] theorem State.clearDiag_wdata : s.clearDiag.wdata = s.wdata := rfl
@[simp] theorem State.clearDiag_rdata : s.clearDiag.rdata = s.rdata := rfl
@[simp] theorem State.clearDiag_i : s.clearDiag.i = s.i := rfl
@[simp] theorem State.clearDiag_k : s.clearDiag.k = s.k := rfl
@[simp] theorem State.clearDiag_nblk : s.clearDiag.nblk = s.nblk := rfl
@[simp] theorem State.clearDiag_pbase : s.clearDiag.pbase = s.pbase := rfl
@[simp] theorem State.clearDiag_plen : s.clearDiag.plen = s.plen := rfl
@[simp] theorem State.clearDiag_j : s.clearDiag.j = s.j := rfl
@[simp] theorem State.clearDiag_t0 : s.clearDiag.t0 = s.t0 := rfl
@[simp] theorem State.clearDiag_latched : s.clearDiag.latched = s.latched := rfl
@[simp] theorem State.clearDiag_lastToggle : s.clearDiag.lastToggle = s.lastToggle := rfl
@[simp] theorem State.clearDiag_toggleSeeded : s.clearDiag.toggleSeeded = s.toggleSeeded := rfl
@[simp] theorem State.clearDiag_diagIe : s.clearDiag.diagIe = false := rfl
@[simp] theorem State.clearDiag_diagIw : s.clearDiag.diagIw = false := rfl
@[simp] theorem State.clearDiag_rsp : s.clearDiag.rsp = s.rsp := rfl
@[simp] theorem State.clearDiag_draws : s.clearDiag.draws = s.draws := rfl
@[simp] theorem State.clearDiag_bridge : s.clearDiag.bridge = s.bridge := rfl
@[simp] theorem State.clearDiag_clock : s.clearDiag.clock = s.clock := rfl
@[simp] theorem State.clearDiag_trace : s.clearDiag.trace = s.trace := rfl
@[simp] theorem State.clearDiag_host : s.clearDiag.host = s.host := rfl

@[simp] theorem State.sampled_seq : s.sampled.seq = s.seq := rfl
@[simp] theorem State.sampled_kind : s.sampled.kind = s.kind := rfl
@[simp] theorem State.sampled_addr : s.sampled.addr = s.addr := rfl
@[simp] theorem State.sampled_len : s.sampled.len = s.len := rfl
@[simp] theorem State.sampled_rev : s.sampled.rev = s.rev := rfl
@[simp] theorem State.sampled_tmo : s.sampled.tmo = s.tmo := rfl
@[simp] theorem State.sampled_wdata : s.sampled.wdata = s.wdata := rfl
@[simp] theorem State.sampled_rdata : s.sampled.rdata = s.rdata := rfl
@[simp] theorem State.sampled_i : s.sampled.i = s.i := rfl
@[simp] theorem State.sampled_k : s.sampled.k = s.k := rfl
@[simp] theorem State.sampled_nblk : s.sampled.nblk = s.nblk := rfl
@[simp] theorem State.sampled_pbase : s.sampled.pbase = s.pbase := rfl
@[simp] theorem State.sampled_plen : s.sampled.plen = s.plen := rfl
@[simp] theorem State.sampled_j : s.sampled.j = s.j := rfl
@[simp] theorem State.sampled_t0 : s.sampled.t0 = s.t0 := rfl
@[simp] theorem State.sampled_latched : s.sampled.latched = s.latched := rfl
@[simp] theorem State.sampled_lastToggle : s.sampled.lastToggle = s.lastToggle := rfl
@[simp] theorem State.sampled_toggleSeeded : s.sampled.toggleSeeded = s.toggleSeeded := rfl
@[simp] theorem State.sampled_diagIe : s.sampled.diagIe = (s.diagIe || stIllegalErase s.sample) := rfl
@[simp] theorem State.sampled_diagIw : s.sampled.diagIw = (s.diagIw || stIllegalWrite s.sample) := rfl
@[simp] theorem State.sampled_rsp : s.sampled.rsp = s.rsp := rfl
@[simp] theorem State.sampled_draws : s.sampled.draws = s.draws := rfl
@[simp] theorem State.sampled_bridge : s.sampled.bridge = { s.bridge with script := s.bridge.script.tail } := rfl
@[simp] theorem State.sampled_clock : s.sampled.clock = s.clock := rfl
@[simp] theorem State.sampled_trace : s.sampled.trace = .regRead Config.regAddr s.sample :: s.trace := rfl
@[simp] theorem State.sampled_host : s.sampled.host = s.host := rfl

@[simp] theorem State.timed_seq : s.timed.seq = s.seq := rfl
@[simp] theorem State.timed_kind : s.timed.kind = s.kind := rfl
@[simp] theorem State.timed_addr : s.timed.addr = s.addr := rfl
@[simp] theorem State.timed_len : s.timed.len = s.len := rfl
@[simp] theorem State.timed_rev : s.timed.rev = s.rev := rfl
@[simp] theorem State.timed_tmo : s.timed.tmo = s.tmo := rfl
@[simp] theorem State.timed_wdata : s.timed.wdata = s.wdata := rfl
@[simp] theorem State.timed_rdata : s.timed.rdata = s.rdata := rfl
@[simp] theorem State.timed_i : s.timed.i = s.i := rfl
@[simp] theorem State.timed_k : s.timed.k = s.k := rfl
@[simp] theorem State.timed_nblk : s.timed.nblk = s.nblk := rfl
@[simp] theorem State.timed_pbase : s.timed.pbase = s.pbase := rfl
@[simp] theorem State.timed_plen : s.timed.plen = s.plen := rfl
@[simp] theorem State.timed_j : s.timed.j = s.j := rfl
@[simp] theorem State.timed_t0 : s.timed.t0 = s.t0 := rfl
@[simp] theorem State.timed_latched : s.timed.latched = s.latched := rfl
@[simp] theorem State.timed_lastToggle : s.timed.lastToggle = s.lastToggle := rfl
@[simp] theorem State.timed_toggleSeeded : s.timed.toggleSeeded = s.toggleSeeded := rfl
@[simp] theorem State.timed_diagIe : s.timed.diagIe = s.diagIe := rfl
@[simp] theorem State.timed_diagIw : s.timed.diagIw = s.diagIw := rfl
@[simp] theorem State.timed_rsp : s.timed.rsp = s.rsp := rfl
@[simp] theorem State.timed_draws : s.timed.draws = s.draws := rfl
@[simp] theorem State.timed_bridge : s.timed.bridge = s.bridge := rfl
@[simp] theorem State.timed_clock : s.timed.clock = { last := s.now, script := s.clock.script.tail } := rfl
@[simp] theorem State.timed_trace : s.timed.trace = .time s.now :: s.trace := rfl
@[simp] theorem State.timed_host : s.timed.host = s.host := rfl

@[simp] theorem State.startWait_seq (q : Seq) : (s.startWait q).seq = q.code := rfl
@[simp] theorem State.startWait_kind (q : Seq) : (s.startWait q).kind = s.kind := rfl
@[simp] theorem State.startWait_addr (q : Seq) : (s.startWait q).addr = s.addr := rfl
@[simp] theorem State.startWait_len (q : Seq) : (s.startWait q).len = s.len := rfl
@[simp] theorem State.startWait_rev (q : Seq) : (s.startWait q).rev = s.rev := rfl
@[simp] theorem State.startWait_tmo (q : Seq) : (s.startWait q).tmo = s.tmo := rfl
@[simp] theorem State.startWait_wdata (q : Seq) : (s.startWait q).wdata = s.wdata := rfl
@[simp] theorem State.startWait_rdata (q : Seq) : (s.startWait q).rdata = s.rdata := rfl
@[simp] theorem State.startWait_i (q : Seq) : (s.startWait q).i = s.i := rfl
@[simp] theorem State.startWait_k (q : Seq) : (s.startWait q).k = s.k := rfl
@[simp] theorem State.startWait_nblk (q : Seq) : (s.startWait q).nblk = s.nblk := rfl
@[simp] theorem State.startWait_pbase (q : Seq) : (s.startWait q).pbase = s.pbase := rfl
@[simp] theorem State.startWait_plen (q : Seq) : (s.startWait q).plen = s.plen := rfl
@[simp] theorem State.startWait_j (q : Seq) : (s.startWait q).j = s.j := rfl
@[simp] theorem State.startWait_t0 (q : Seq) : (s.startWait q).t0 = s.now := rfl
@[simp] theorem State.startWait_latched (q : Seq) : (s.startWait q).latched = s.latched := rfl
@[simp] theorem State.startWait_lastToggle (q : Seq) : (s.startWait q).lastToggle = s.lastToggle := rfl
@[simp] theorem State.startWait_toggleSeeded (q : Seq) : (s.startWait q).toggleSeeded = s.toggleSeeded := rfl
@[simp] theorem State.startWait_diagIe (q : Seq) : (s.startWait q).diagIe = s.diagIe := rfl
@[simp] theorem State.startWait_diagIw (q : Seq) : (s.startWait q).diagIw = s.diagIw := rfl
@[simp] theorem State.startWait_rsp (q : Seq) : (s.startWait q).rsp = s.rsp := rfl
@[simp] theorem State.startWait_draws (q : Seq) : (s.startWait q).draws = s.draws := rfl
@[simp] theorem State.startWait_bridge (q : Seq) : (s.startWait q).bridge = s.bridge := rfl
@[simp] theorem State.startWait_clock (q : Seq) : (s.startWait q).clock = { last := s.now, script := s.clock.script.tail } := rfl
@[simp] theorem State.startWait_trace (q : Seq) : (s.startWait q).trace = .time s.now :: s.trace := rfl
@[simp] theorem State.startWait_host (q : Seq) : (s.startWait q).host = s.host := rfl

@[simp] theorem State.respond_seq (c : RspCode) (n : Info) (d : List Byte) : (s.respond c n d).seq = Seq.respond.code := rfl
@[simp] theorem State.respond_kind (c : RspCode) (n : Info) (d : List Byte) : (s.respond c n d).kind = s.kind := rfl
@[simp] theorem State.respond_addr (c : RspCode) (n : Info) (d : List Byte) : (s.respond c n d).addr = s.addr := rfl
@[simp] theorem State.respond_len (c : RspCode) (n : Info) (d : List Byte) : (s.respond c n d).len = s.len := rfl
@[simp] theorem State.respond_rev (c : RspCode) (n : Info) (d : List Byte) : (s.respond c n d).rev = s.rev := rfl
@[simp] theorem State.respond_tmo (c : RspCode) (n : Info) (d : List Byte) : (s.respond c n d).tmo = s.tmo := rfl
@[simp] theorem State.respond_wdata (c : RspCode) (n : Info) (d : List Byte) : (s.respond c n d).wdata = s.wdata := rfl
@[simp] theorem State.respond_rdata (c : RspCode) (n : Info) (d : List Byte) : (s.respond c n d).rdata = s.rdata := rfl
@[simp] theorem State.respond_i (c : RspCode) (n : Info) (d : List Byte) : (s.respond c n d).i = s.i := rfl
@[simp] theorem State.respond_k (c : RspCode) (n : Info) (d : List Byte) : (s.respond c n d).k = s.k := rfl
@[simp] theorem State.respond_nblk (c : RspCode) (n : Info) (d : List Byte) : (s.respond c n d).nblk = s.nblk := rfl
@[simp] theorem State.respond_pbase (c : RspCode) (n : Info) (d : List Byte) : (s.respond c n d).pbase = s.pbase := rfl
@[simp] theorem State.respond_plen (c : RspCode) (n : Info) (d : List Byte) : (s.respond c n d).plen = s.plen := rfl
@[simp] theorem State.respond_j (c : RspCode) (n : Info) (d : List Byte) : (s.respond c n d).j = s.j := rfl
@[simp] theorem State.respond_t0 (c : RspCode) (n : Info) (d : List Byte) : (s.respond c n d).t0 = s.t0 := rfl
@[simp] theorem State.respond_latched (c : RspCode) (n : Info) (d : List Byte) : (s.respond c n d).latched = s.latched := rfl
@[simp] theorem State.respond_lastToggle (c : RspCode) (n : Info) (d : List Byte) : (s.respond c n d).lastToggle = s.lastToggle := rfl
@[simp] theorem State.respond_toggleSeeded (c : RspCode) (n : Info) (d : List Byte) : (s.respond c n d).toggleSeeded = s.toggleSeeded := rfl
@[simp] theorem State.respond_diagIe (c : RspCode) (n : Info) (d : List Byte) : (s.respond c n d).diagIe = s.diagIe := rfl
@[simp] theorem State.respond_diagIw (c : RspCode) (n : Info) (d : List Byte) : (s.respond c n d).diagIw = s.diagIw := rfl
@[simp] theorem State.respond_rsp (c : RspCode) (n : Info) (d : List Byte) : (s.respond c n d).rsp = some { code := c, info := n, data := d, diagIe := s.diagIe, diagIw := s.diagIw } := rfl
@[simp] theorem State.respond_draws (c : RspCode) (n : Info) (d : List Byte) : (s.respond c n d).draws = s.draws := rfl
@[simp] theorem State.respond_bridge (c : RspCode) (n : Info) (d : List Byte) : (s.respond c n d).bridge = s.bridge := rfl
@[simp] theorem State.respond_clock (c : RspCode) (n : Info) (d : List Byte) : (s.respond c n d).clock = s.clock := rfl
@[simp] theorem State.respond_trace (c : RspCode) (n : Info) (d : List Byte) : (s.respond c n d).trace = s.trace := rfl
@[simp] theorem State.respond_host (c : RspCode) (n : Info) (d : List Byte) : (s.respond c n d).host = s.host := rfl

@[simp] theorem State.leaveUnsettled_seq (w : Wait) : (s.leaveUnsettled w).seq = s.seq := rfl
@[simp] theorem State.leaveUnsettled_kind (w : Wait) : (s.leaveUnsettled w).kind = s.kind := rfl
@[simp] theorem State.leaveUnsettled_addr (w : Wait) : (s.leaveUnsettled w).addr = s.addr := rfl
@[simp] theorem State.leaveUnsettled_len (w : Wait) : (s.leaveUnsettled w).len = s.len := rfl
@[simp] theorem State.leaveUnsettled_rev (w : Wait) : (s.leaveUnsettled w).rev = s.rev := rfl
@[simp] theorem State.leaveUnsettled_tmo (w : Wait) : (s.leaveUnsettled w).tmo = s.tmo := rfl
@[simp] theorem State.leaveUnsettled_wdata (w : Wait) : (s.leaveUnsettled w).wdata = s.wdata := rfl
@[simp] theorem State.leaveUnsettled_rdata (w : Wait) : (s.leaveUnsettled w).rdata = s.rdata := rfl
@[simp] theorem State.leaveUnsettled_i (w : Wait) : (s.leaveUnsettled w).i = s.i := rfl
@[simp] theorem State.leaveUnsettled_k (w : Wait) : (s.leaveUnsettled w).k = s.k := rfl
@[simp] theorem State.leaveUnsettled_nblk (w : Wait) : (s.leaveUnsettled w).nblk = s.nblk := rfl
@[simp] theorem State.leaveUnsettled_pbase (w : Wait) : (s.leaveUnsettled w).pbase = s.pbase := rfl
@[simp] theorem State.leaveUnsettled_plen (w : Wait) : (s.leaveUnsettled w).plen = s.plen := rfl
@[simp] theorem State.leaveUnsettled_j (w : Wait) : (s.leaveUnsettled w).j = s.j := rfl
@[simp] theorem State.leaveUnsettled_t0 (w : Wait) : (s.leaveUnsettled w).t0 = s.t0 := rfl
@[simp] theorem State.leaveUnsettled_latched (w : Wait) : (s.leaveUnsettled w).latched = s.latched := rfl
@[simp] theorem State.leaveUnsettled_lastToggle (w : Wait) : (s.leaveUnsettled w).lastToggle = s.lastToggle := rfl
@[simp] theorem State.leaveUnsettled_toggleSeeded (w : Wait) : (s.leaveUnsettled w).toggleSeeded = s.toggleSeeded := rfl
@[simp] theorem State.leaveUnsettled_diagIe (w : Wait) : (s.leaveUnsettled w).diagIe = s.diagIe := rfl
@[simp] theorem State.leaveUnsettled_diagIw (w : Wait) : (s.leaveUnsettled w).diagIw = s.diagIw := rfl
@[simp] theorem State.leaveUnsettled_rsp (w : Wait) : (s.leaveUnsettled w).rsp = s.rsp := rfl
@[simp] theorem State.leaveUnsettled_draws (w : Wait) : (s.leaveUnsettled w).draws = s.draws := rfl
@[simp] theorem State.leaveUnsettled_bridge (w : Wait) : (s.leaveUnsettled w).bridge = s.unsettledBridge w := rfl
@[simp] theorem State.leaveUnsettled_clock (w : Wait) : (s.leaveUnsettled w).clock = s.clock := rfl
@[simp] theorem State.leaveUnsettled_trace (w : Wait) : (s.leaveUnsettled w).trace = s.trace := rfl
@[simp] theorem State.leaveUnsettled_host (w : Wait) : (s.leaveUnsettled w).host = s.host := rfl

@[simp] theorem State.startPage_seq (off : Word) : (s.startPage off).seq = Seq.ppLoad.code := rfl
@[simp] theorem State.startPage_kind (off : Word) : (s.startPage off).kind = s.kind := rfl
@[simp] theorem State.startPage_addr (off : Word) : (s.startPage off).addr = s.addr := rfl
@[simp] theorem State.startPage_len (off : Word) : (s.startPage off).len = s.len := rfl
@[simp] theorem State.startPage_rev (off : Word) : (s.startPage off).rev = s.rev := rfl
@[simp] theorem State.startPage_tmo (off : Word) : (s.startPage off).tmo = s.tmo := rfl
@[simp] theorem State.startPage_wdata (off : Word) : (s.startPage off).wdata = s.wdata := rfl
@[simp] theorem State.startPage_rdata (off : Word) : (s.startPage off).rdata = s.rdata := rfl
@[simp] theorem State.startPage_i (off : Word) : (s.startPage off).i = s.i := rfl
@[simp] theorem State.startPage_k (off : Word) : (s.startPage off).k = s.k := rfl
@[simp] theorem State.startPage_nblk (off : Word) : (s.startPage off).nblk = s.nblk := rfl
@[simp] theorem State.startPage_pbase (off : Word) : (s.startPage off).pbase = off := rfl
@[simp] theorem State.startPage_plen (off : Word) : (s.startPage off).plen = plenOf s.len off := rfl
@[simp] theorem State.startPage_j (off : Word) : (s.startPage off).j = 0#9 := rfl
@[simp] theorem State.startPage_t0 (off : Word) : (s.startPage off).t0 = s.t0 := rfl
@[simp] theorem State.startPage_latched (off : Word) : (s.startPage off).latched = s.latched := rfl
@[simp] theorem State.startPage_lastToggle (off : Word) : (s.startPage off).lastToggle = s.lastToggle := rfl
@[simp] theorem State.startPage_toggleSeeded (off : Word) : (s.startPage off).toggleSeeded = s.toggleSeeded := rfl
@[simp] theorem State.startPage_diagIe (off : Word) : (s.startPage off).diagIe = s.diagIe := rfl
@[simp] theorem State.startPage_diagIw (off : Word) : (s.startPage off).diagIw = s.diagIw := rfl
@[simp] theorem State.startPage_rsp (off : Word) : (s.startPage off).rsp = s.rsp := rfl
@[simp] theorem State.startPage_draws (off : Word) : (s.startPage off).draws = s.draws := rfl
@[simp] theorem State.startPage_bridge (off : Word) : (s.startPage off).bridge = s.bridge := rfl
@[simp] theorem State.startPage_clock (off : Word) : (s.startPage off).clock = s.clock := rfl
@[simp] theorem State.startPage_trace (off : Word) : (s.startPage off).trace = s.trace := rfl
@[simp] theorem State.startPage_host (off : Word) : (s.startPage off).host = s.host := rfl

@[simp] theorem State.edgeSeen_seq (v : Word) (t : Nat) : (s.edgeSeen v t).seq = Seq.rdBusy.code := rfl
@[simp] theorem State.edgeSeen_kind (v : Word) (t : Nat) : (s.edgeSeen v t).kind = s.kind := rfl
@[simp] theorem State.edgeSeen_addr (v : Word) (t : Nat) : (s.edgeSeen v t).addr = s.addr := rfl
@[simp] theorem State.edgeSeen_len (v : Word) (t : Nat) : (s.edgeSeen v t).len = s.len := rfl
@[simp] theorem State.edgeSeen_rev (v : Word) (t : Nat) : (s.edgeSeen v t).rev = s.rev := rfl
@[simp] theorem State.edgeSeen_tmo (v : Word) (t : Nat) : (s.edgeSeen v t).tmo = s.tmo := rfl
@[simp] theorem State.edgeSeen_wdata (v : Word) (t : Nat) : (s.edgeSeen v t).wdata = s.wdata := rfl
@[simp] theorem State.edgeSeen_rdata (v : Word) (t : Nat) : (s.edgeSeen v t).rdata = s.rdata := rfl
@[simp] theorem State.edgeSeen_i (v : Word) (t : Nat) : (s.edgeSeen v t).i = s.i := rfl
@[simp] theorem State.edgeSeen_k (v : Word) (t : Nat) : (s.edgeSeen v t).k = s.k := rfl
@[simp] theorem State.edgeSeen_nblk (v : Word) (t : Nat) : (s.edgeSeen v t).nblk = s.nblk := rfl
@[simp] theorem State.edgeSeen_pbase (v : Word) (t : Nat) : (s.edgeSeen v t).pbase = s.pbase := rfl
@[simp] theorem State.edgeSeen_plen (v : Word) (t : Nat) : (s.edgeSeen v t).plen = s.plen := rfl
@[simp] theorem State.edgeSeen_j (v : Word) (t : Nat) : (s.edgeSeen v t).j = s.j := rfl
@[simp] theorem State.edgeSeen_t0 (v : Word) (t : Nat) : (s.edgeSeen v t).t0 = t := rfl
@[simp] theorem State.edgeSeen_latched (v : Word) (t : Nat) : (s.edgeSeen v t).latched = stData v := rfl
@[simp] theorem State.edgeSeen_lastToggle (v : Word) (t : Nat) : (s.edgeSeen v t).lastToggle = stToggle v := rfl
@[simp] theorem State.edgeSeen_toggleSeeded (v : Word) (t : Nat) : (s.edgeSeen v t).toggleSeeded = s.toggleSeeded := rfl
@[simp] theorem State.edgeSeen_diagIe (v : Word) (t : Nat) : (s.edgeSeen v t).diagIe = s.diagIe := rfl
@[simp] theorem State.edgeSeen_diagIw (v : Word) (t : Nat) : (s.edgeSeen v t).diagIw = s.diagIw := rfl
@[simp] theorem State.edgeSeen_rsp (v : Word) (t : Nat) : (s.edgeSeen v t).rsp = s.rsp := rfl
@[simp] theorem State.edgeSeen_draws (v : Word) (t : Nat) : (s.edgeSeen v t).draws = s.draws := rfl
@[simp] theorem State.edgeSeen_bridge (v : Word) (t : Nat) : (s.edgeSeen v t).bridge = s.bridge := rfl
@[simp] theorem State.edgeSeen_clock (v : Word) (t : Nat) : (s.edgeSeen v t).clock = s.clock := rfl
@[simp] theorem State.edgeSeen_trace (v : Word) (t : Nat) : (s.edgeSeen v t).trace = s.trace := rfl
@[simp] theorem State.edgeSeen_host (v : Word) (t : Nat) : (s.edgeSeen v t).host = s.host := rfl

@[simp] theorem State.latchOperands_seq (o : Operands) : (s.latchOperands o).seq = s.seq := rfl
@[simp] theorem State.latchOperands_kind (o : Operands) : (s.latchOperands o).kind = o.kind := rfl
@[simp] theorem State.latchOperands_addr (o : Operands) : (s.latchOperands o).addr = o.addr.getD (Config.absentAddr s.draws) := rfl
@[simp] theorem State.latchOperands_len (o : Operands) : (s.latchOperands o).len = o.len.getD (Config.absentLen s.draws) := rfl
@[simp] theorem State.latchOperands_rev (o : Operands) : (s.latchOperands o).rev = o.rev.getD (Config.absentReverse s.draws) := rfl
@[simp] theorem State.latchOperands_tmo (o : Operands) : (s.latchOperands o).tmo = o.tmo.getD (Config.absentTimeout s.draws) := rfl
@[simp] theorem State.latchOperands_wdata (o : Operands) : (s.latchOperands o).wdata = o.wdata.getD ((Config.absentBytes s.draws).take Config.maxXfer) := rfl
@[simp] theorem State.latchOperands_rdata (o : Operands) : (s.latchOperands o).rdata = [] := rfl
@[simp] theorem State.latchOperands_i (o : Operands) : (s.latchOperands o).i = s.i := rfl
@[simp] theorem State.latchOperands_k (o : Operands) : (s.latchOperands o).k = s.k := rfl
@[simp] theorem State.latchOperands_nblk (o : Operands) : (s.latchOperands o).nblk = s.nblk := rfl
@[simp] theorem State.latchOperands_pbase (o : Operands) : (s.latchOperands o).pbase = s.pbase := rfl
@[simp] theorem State.latchOperands_plen (o : Operands) : (s.latchOperands o).plen = s.plen := rfl
@[simp] theorem State.latchOperands_j (o : Operands) : (s.latchOperands o).j = s.j := rfl
@[simp] theorem State.latchOperands_t0 (o : Operands) : (s.latchOperands o).t0 = s.t0 := rfl
@[simp] theorem State.latchOperands_latched (o : Operands) : (s.latchOperands o).latched = s.latched := rfl
@[simp] theorem State.latchOperands_lastToggle (o : Operands) : (s.latchOperands o).lastToggle = s.lastToggle := rfl
@[simp] theorem State.latchOperands_toggleSeeded (o : Operands) : (s.latchOperands o).toggleSeeded = s.toggleSeeded := rfl
@[simp] theorem State.latchOperands_diagIe (o : Operands) : (s.latchOperands o).diagIe = false := rfl
@[simp] theorem State.latchOperands_diagIw (o : Operands) : (s.latchOperands o).diagIw = false := rfl
@[simp] theorem State.latchOperands_rsp (o : Operands) : (s.latchOperands o).rsp = s.rsp := rfl
@[simp] theorem State.latchOperands_draws (o : Operands) : (s.latchOperands o).draws = s.draws + 1 := rfl
@[simp] theorem State.latchOperands_bridge (o : Operands) : (s.latchOperands o).bridge = s.bridge := rfl
@[simp] theorem State.latchOperands_clock (o : Operands) : (s.latchOperands o).clock = s.clock := rfl
@[simp] theorem State.latchOperands_trace (o : Operands) : (s.latchOperands o).trace = s.trace := rfl
@[simp] theorem State.latchOperands_host (o : Operands) : (s.latchOperands o).host = s.host := rfl

@[simp] theorem State.blockReset_seq : s.blockReset.seq = Seq.idle.code := rfl
@[simp] theorem State.blockReset_kind : s.blockReset.kind = 0#3 := rfl
@[simp] theorem State.blockReset_addr : s.blockReset.addr = 0#32 := rfl
@[simp] theorem State.blockReset_len : s.blockReset.len = 0#32 := rfl
@[simp] theorem State.blockReset_rev : s.blockReset.rev = false := rfl
@[simp] theorem State.blockReset_tmo : s.blockReset.tmo = 0#32 := rfl
@[simp] theorem State.blockReset_wdata : s.blockReset.wdata = [] := rfl
@[simp] theorem State.blockReset_rdata : s.blockReset.rdata = [] := rfl
@[simp] theorem State.blockReset_i : s.blockReset.i = 0#32 := rfl
@[simp] theorem State.blockReset_k : s.blockReset.k = 0#32 := rfl
@[simp] theorem State.blockReset_nblk : s.blockReset.nblk = 0#32 := rfl
@[simp] theorem State.blockReset_pbase : s.blockReset.pbase = 0#32 := rfl
@[simp] theorem State.blockReset_plen : s.blockReset.plen = 0#9 := rfl
@[simp] theorem State.blockReset_j : s.blockReset.j = 0#9 := rfl
@[simp] theorem State.blockReset_t0 : s.blockReset.t0 = 0 := rfl
@[simp] theorem State.blockReset_latched : s.blockReset.latched = 0#8 := rfl
@[simp] theorem State.blockReset_lastToggle : s.blockReset.lastToggle = false := rfl
@[simp] theorem State.blockReset_toggleSeeded : s.blockReset.toggleSeeded = false := rfl
@[simp] theorem State.blockReset_diagIe : s.blockReset.diagIe = false := rfl
@[simp] theorem State.blockReset_diagIw : s.blockReset.diagIw = false := rfl
@[simp] theorem State.blockReset_rsp : s.blockReset.rsp = none := rfl
@[simp] theorem State.blockReset_draws : s.blockReset.draws = s.draws := rfl
@[simp] theorem State.blockReset_bridge : s.blockReset.bridge = s.bridge := rfl
@[simp] theorem State.blockReset_clock : s.blockReset.clock = s.clock := rfl
@[simp] theorem State.blockReset_trace : s.blockReset.trace = s.trace := rfl
@[simp] theorem State.blockReset_host : s.blockReset.host = s.host := rfl

end Sys2Proof.Machine
end

