-- ==== Sys2Proof/Laws/Memory.lean ====
section
/-! SUPPORT. Flash memory: read after write, and that every operation keeps the canonical form. -/

namespace Sys2Proof.Machine

theorem Memory.wfFrom_mono {lo lo' : Nat} (h : lo' ≤ lo) : ∀ {m : Memory}, m.wfFrom lo = true → m.wfFrom lo' = true
  | [], _ => rfl
  | (x, c) :: m, hw => by
    simp only [Memory.wfFrom, Bool.and_eq_true, decide_eq_true_eq] at hw ⊢
    exact ⟨⟨⟨by omega, hw.1.1.2⟩, hw.1.2⟩, hw.2⟩

theorem Memory.read_of_lt {lo a : Nat} (h : a < lo) : ∀ {m : Memory}, m.wfFrom lo = true → m.read a = Config.erasedByte
  | [], _ => rfl
  | (x, c) :: m, hw => by
    simp only [Memory.wfFrom, Bool.and_eq_true, decide_eq_true_eq] at hw
    simp only [Memory.read, if_neg (show a ≠ x by omega)]
    exact Memory.read_of_lt (by omega) hw.2

theorem Memory.read_write_other {a b : Nat} (h : b ≠ a) (v : Byte) : ∀ m : Memory, (m.write a v).read b = m.read b
  | [] => by
    by_cases hv : v = Config.erasedByte <;> simp [Memory.write, Memory.read, hv, h]
  | (x, c) :: m => by
    unfold Memory.write
    split
    · split <;> simp [Memory.read, h]
    · split
      · rename_i h2
        split <;> simp [Memory.read, ← h2, h]
      · by_cases hb : b = x
        · simp [Memory.read, hb]
        · simp [Memory.read, hb, Memory.read_write_other h v m]

theorem Memory.read_write_same (v : Byte) : ∀ {lo a : Nat} {m : Memory}, m.wfFrom lo = true → (m.write a v).read a = v
  | _, a, [], _ => by
    by_cases hv : v = Config.erasedByte <;> simp [Memory.write, Memory.read, hv]
  | _, a, (x, c) :: m, hw => by
    simp only [Memory.wfFrom, Bool.and_eq_true, decide_eq_true_eq] at hw
    unfold Memory.write
    split
    · split
      · rename_i h1 h2
        subst h2
        simp only [Memory.read, if_neg (show a ≠ x by omega)]
        exact Memory.read_of_lt (by omega) hw.2
      · simp [Memory.read]
    · split
      · rename_i h2
        subst h2
        split
        · rename_i h3
          rw [h3]
          exact Memory.read_of_lt (by omega) hw.2
        · simp [Memory.read]
      · rename_i h1 h2
        simp only [Memory.read, if_neg h2]
        exact Memory.read_write_same v hw.2

theorem Memory.write_wfFrom (v : Byte) : ∀ {lo a : Nat} {m : Memory}, lo ≤ a → a < Config.flashBytes →
    m.wfFrom lo = true → (m.write a v).wfFrom lo = true
  | lo, a, [], h1, h2, _ => by
    by_cases hv : v = Config.erasedByte <;> simp [Memory.write, Memory.wfFrom, hv, h1, h2]
  | lo, a, (x, c) :: m, h1, h2, hw => by
    have hw' := hw
    simp only [Memory.wfFrom, Bool.and_eq_true, decide_eq_true_eq] at hw
    unfold Memory.write
    split
    · split
      · exact hw'
      · rename_i h3 h4
        simp only [Memory.wfFrom, Bool.and_eq_true, decide_eq_true_eq, Bool.not_eq_true', beq_eq_false_iff_ne]
        exact ⟨⟨⟨h1, h2⟩, h4⟩, ⟨⟨by omega, hw.1.1.2⟩, by simpa using hw.1.2⟩, hw.2⟩
    · split
      · rename_i h3
        subst h3
        split
        · exact Memory.wfFrom_mono (by omega) hw.2
        · rename_i h4
          simp only [Memory.wfFrom, Bool.and_eq_true, decide_eq_true_eq, Bool.not_eq_true', beq_eq_false_iff_ne]
          exact ⟨⟨⟨h1, h2⟩, h4⟩, hw.2⟩
      · simp only [Memory.wfFrom, Bool.and_eq_true, decide_eq_true_eq]
        exact ⟨hw.1, Memory.write_wfFrom v (by omega) h2 hw.2⟩

theorem Memory.write_wf {m : Memory} {a : Nat} (v : Byte) (ha : a < Config.flashBytes) (hw : m.wf = true) :
    (m.write a v).wf = true :=
  Memory.write_wfFrom v (Nat.zero_le _) ha hw

theorem Memory.filter_wfFrom (p : Host.Cell → Bool) : ∀ {lo : Nat} {m : Memory}, m.wfFrom lo = true →
    Memory.wfFrom lo (m.filter p) = true
  | _, [], _ => rfl
  | lo, (x, c) :: m, hw => by
    have hw' := hw
    simp only [Memory.wfFrom, Bool.and_eq_true, decide_eq_true_eq] at hw
    have ih := Memory.filter_wfFrom p hw.2
    by_cases hp : p (x, c) = true
    · simp only [List.filter_cons, hp, if_true, Memory.wfFrom, Bool.and_eq_true, decide_eq_true_eq]
      exact ⟨hw.1, ih⟩
    · rw [List.filter_cons_of_neg hp]
      exact Memory.wfFrom_mono (by omega) ih

theorem Memory.eraseSector_wf {m : Memory} (a : Nat) (hw : m.wf = true) : (m.eraseSector a).wf = true :=
  Memory.filter_wfFrom _ hw

theorem Memory.read_eraseSector (a b : Nat) : ∀ m : Memory, (m.eraseSector a).read b =
    if b / Config.sectorBytes = a / Config.sectorBytes then Config.erasedByte else m.read b
  | [] => by simp [Memory.eraseSector, Memory.read]
  | (x, c) :: m => by
    have ih := Memory.read_eraseSector a b m
    unfold Memory.eraseSector at ih ⊢
    by_cases hx : x / Config.sectorBytes = a / Config.sectorBytes
    · rw [List.filter_cons_of_neg (by simp [hx]), ih]
      by_cases hb : b / Config.sectorBytes = a / Config.sectorBytes
      · simp [hb]
      · have : b ≠ x := fun h => hb (h ▸ hx)
        simp [hb, Memory.read, this]
    · rw [List.filter_cons_of_pos (by simp [hx])]
      by_cases hb : b = x
      · simp [Memory.read, hb, hx]
      · simp only [Memory.read, if_neg hb, ih]

theorem Memory.program_wf : ∀ (bs : List Byte) {m : Memory} (a : Nat), m.wf = true → (m.program a bs).wf = true
  | [], _, _, hw => hw
  | b :: bs, _, a, hw =>
    Memory.program_wf bs (a + 1) (Memory.write_wf b (Nat.mod_lt _ (by decide)) hw)

/-- A byte no store of the program reaches reads as before. -/
theorem Memory.read_program_other {x : Nat} : ∀ (bs : List Byte) (m : Memory) (a : Nat),
    (∀ j < bs.length, x ≠ (a + j) % Config.flashBytes) → (m.program a bs).read x = m.read x
  | [], _, _, _ => rfl
  | b :: bs, m, a, h => by
    rw [Memory.program, Memory.read_program_other bs _ (a + 1), Memory.read_write_other]
    · simpa using h 0 (by simp)
    · intro j hj
      have := h (j + 1) (by simpa using hj)
      rwa [show a + 1 + j = a + (j + 1) by omega]

/-- Each byte of at most a flash's worth of programmed bytes is read back. -/
theorem Memory.read_program_same : ∀ (bs : List Byte) {m : Memory} (a j : Nat), m.wf = true →
    bs.length ≤ Config.flashBytes → ∀ h : j < bs.length, (m.program a bs).read ((a + j) % Config.flashBytes) = bs[j]
  | [], _, _, _, _, _, h => absurd h (by simp)
  | b :: bs, m, a, 0, hw, hl, _ => by
    rw [Memory.program, Memory.read_program_other, Nat.add_zero, Memory.read_write_same _ hw]
    · rfl
    · intro j hj
      simp only [List.length_cons, Config.flashBytes] at hl ⊢
      omega
  | b :: bs, m, a, j + 1, hw, hl, h => by
    have h' : j < bs.length := by simpa using h
    have := Memory.read_program_same bs (m := m.write (a % Config.flashBytes) b) (a + 1) j
      (Memory.write_wf b (Nat.mod_lt _ (by decide)) hw) (by simp only [List.length_cons] at hl; omega) h'
    rw [Memory.program, show a + (j + 1) = a + 1 + j by omega, this]
    rfl

end Sys2Proof.Machine
end

