-- ==== Sys2Proof/Laws/Contract.lean ====
section
/-! SUPPORT. What each event does to the bridge contract, once, and that a program of the flash does what a commit
promises. -/

namespace Sys2Proof.Safety

open Sys2Proof.Machine

/-! ### The fields of the reference bridge's status word (R95, R141) -/

@[simp] theorem stToggle_statusWord (t b : Bool) (d : Byte) : stToggle (statusWord t b d) = t := by
  cases t <;> cases b <;> revert d <;> decide

@[simp] theorem stBusy_statusWord (t b : Bool) (d : Byte) : stBusy (statusWord t b d) = b := by
  cases t <;> cases b <;> revert d <;> decide

@[simp] theorem stData_statusWord (t b : Bool) (d : Byte) : stData (statusWord t b d) = d := by
  cases t <;> cases b <;> revert d <;> decide

/-! ### One event -/

@[simp] theorem Contract.after_regRead (c : Contract) (a : Nat) (v : Word) : c.after (.regRead a v) = some (c.sampled v) := rfl

@[simp] theorem Contract.sampled_flash (c : Contract) (v : Word) : (c.sampled v).flash = c.flash := by
  unfold Contract.sampled; split <;> (try split) <;> rfl

@[simp] theorem Contract.sampled_erasedByte (c : Contract) (v : Word) : (c.sampled v).erasedByte = c.erasedByte := by
  unfold Contract.sampled; split <;> (try split) <;> rfl

@[simp] theorem Contract.sampled_loads (c : Contract) (v : Word) : (c.sampled v).loads = c.loads := by
  unfold Contract.sampled; split <;> (try split) <;> rfl

@[simp] theorem Contract.sampled_busy (c : Contract) (v : Word) : (c.sampled v).busy = stBusy v := by
  unfold Contract.sampled; split <;> (try split) <;> rfl

@[simp] theorem Contract.after_time (c : Contract) (t : Nat) : c.after (.time t) = some (c.timed t) := rfl

@[simp] theorem Contract.timed_erasedByte (c : Contract) (t : Nat) : (c.timed t).erasedByte = c.erasedByte := by
  unfold Contract.timed; split <;> rfl

@[simp] theorem Contract.timed_loads (c : Contract) (t : Nat) : (c.timed t).loads = c.loads := by
  unfold Contract.timed; split <;> rfl

@[simp] theorem Contract.timed_toggle (c : Contract) (t : Nat) : (c.timed t).toggle = c.toggle := by
  unfold Contract.timed; split <;> rfl

@[simp] theorem Contract.timed_shown (c : Contract) (t : Nat) : (c.timed t).shown = c.shown := by
  unfold Contract.timed; split <;> rfl

@[simp] theorem Contract.timed_busy (c : Contract) (t : Nat) : (c.timed t).busy = c.busy := by
  unfold Contract.timed; split <;> rfl

/-- A reading of the time base starts a clock at most: what kind of operation is outstanding stays. -/
theorem Contract.timed_op (c : Contract) (t : Nat) : (c.timed t).op = c.op ∨
    ∃ limitMs span, c.op = .busy limitMs none span ∧ (c.timed t).op = .busy limitMs (some t) span := by
  unfold Contract.timed
  split
  · rename_i h
    exact .inr ⟨_, _, h, rfl⟩
  · exact .inl rfl
  · exact .inl rfl
  · exact .inl rfl

@[simp] theorem unsettledFlash_none (flash : Nat → FlashByte) : unsettledFlash flash none = flash := rfl

/-- A reading of the time base leaves a flash byte as promised, or at any value. -/
theorem Contract.timed_flash (c : Contract) (t x : Nat) :
    (c.timed t).flash x = c.flash x ∨ (c.timed t).flash x = .unspecified := by
  unfold Contract.timed
  split
  · exact .inl rfl
  · simp only
    split
    · unfold unsettledFlash
      split
      · split
        · exact .inr rfl
        · exact .inl rfl
      · exact .inl rfl
    · exact .inl rfl
  · exact .inl rfl
  · exact .inl rfl

/-- A command from the list R99 gives, written while nothing is outstanding and the bridge was not busy, has its effect. -/
theorem Contract.after_regWrite (c : Contract) (a : Nat) {v : Word} (h : c.op = .none) (hb : c.busy = false)
    (he : (decodeCmd v).emittable = true) : c.after (.regWrite a v) = c.command (decodeCmd v) := by
  simp [Contract.after, Contract.quiet, h, hb, he]

/-! ### A commit -/

/-- The byte an erased or held flash byte reads as, with ERASED_BYTE `e`. -/
theorem Contract.byteAt_eq_some {c : Contract} {x : Nat} {v : Byte} :
    c.byteAt x = some v ↔ c.flash x = .erased ∧ c.erasedByte = v ∨ c.flash x = .holds v := by
  unfold Contract.byteAt
  cases c.flash x <;> simp

/-- A byte a commit leaves erased was erased before, and no store of at most a page of bytes reaches it. -/
theorem commitFlash_eq_erased {flash : Nat → FlashByte} {a x : Nat} {bytes : List Byte} (ha : a < Config.flashBytes)
    (hl : bytes.length ≤ Config.pageBytes) (h : commitFlash flash a bytes x = .erased) :
    flash x = .erased ∧ ∀ j < bytes.length, x ≠ (a + j) % Config.flashBytes := by
  unfold commitFlash at h
  split at h
  · rename_i hin
    simp only [FitsPage, Config.pageBytes, Config.flashBytes] at hin ha ⊢
    split at h
    · split at h
      · split at h <;> cases h
      · rename_i hn
        have := List.getElem?_eq_none_iff.1 hn
        exact ⟨h, fun j hj => by omega⟩
    · exact ⟨h, fun j hj => by omega⟩
  · split at h
    · cases h
    · rename_i hin hx
      simp only [FitsPage, Config.pageBytes, Config.flashBytes] at hin hx ha hl ⊢
      exact ⟨h, fun j hj => by omega⟩

/-- A byte a commit promises is one of the loaded bytes stored over an erased one, or was promised before and no store of at most
a page of bytes reaches it. -/
theorem commitFlash_eq_holds {flash : Nat → FlashByte} {a x : Nat} {bytes : List Byte} {b : Byte} (ha : a < Config.flashBytes)
    (hl : bytes.length ≤ Config.pageBytes) (h : commitFlash flash a bytes x = .holds b) :
    (∃ j, bytes[j]? = some b ∧ x = (a + j) % Config.flashBytes ∧ flash x = .erased) ∨
      flash x = .holds b ∧ ∀ j < bytes.length, x ≠ (a + j) % Config.flashBytes := by
  unfold commitFlash at h
  split at h
  · rename_i hin
    simp only [FitsPage, Config.pageBytes, Config.flashBytes] at hin ha ⊢
    split at h
    · split at h
      · rename_i hx _ _ hj
        have hlt := (List.getElem?_eq_some_iff.1 hj).1
        split at h
        · rename_i he
          cases h
          exact .inl ⟨x - a, hj, by omega, he⟩
        · cases h
      · rename_i hn
        have := List.getElem?_eq_none_iff.1 hn
        exact .inr ⟨h, fun j hj => by omega⟩
    · exact .inr ⟨h, fun j hj => by omega⟩
  · split at h
    · cases h
    · rename_i hin hx
      simp only [FitsPage, Config.pageBytes, Config.flashBytes] at hin hx ha hl ⊢
      exact .inr ⟨h, fun j hj => by omega⟩

end Sys2Proof.Safety
end

