-- ==== Sys2Proof/Laws/Decode.lean ====
section
/-! SUPPORT. The fields of a command word and what the built words decode to (R90, R91, R99). -/

namespace Sys2Proof

theorem opField_cmd (op : BitVec 3) (a : Word) (d : Byte) : opField (cmd op a d) = op := by
  ext n hn
  simp only [opField, cmd, Config.addrMask, BitVec.getElem_extractLsb', BitVec.getLsbD_or, BitVec.getLsbD_shiftLeft,
    BitVec.getLsbD_setWidth]
  have h1 : ¬ 29 + n < 29 := by omega
  have h2 : d.getLsbD (29 + n) = false := BitVec.getLsbD_of_ge _ _ (by omega)
  have h4 : 29 + n < 32 := by omega
  have h3 : (0x1FFFFF#32).getLsbD (29 + n - 8) = false := by
    interval_cases n <;> decide
  simp only [h1, h2, h3, h4, hn, BitVec.getLsbD_and, BitVec.getLsbD_eq_getElem, Nat.add_sub_cancel_left]
  simp only [decide_true, decide_false, Bool.not_false, Bool.and_true, Bool.true_and, Bool.and_false, Bool.or_false,
    show n < 32 by omega]

theorem flashAddr_cmd (op : BitVec 3) (a : Word) (d : Byte) : flashAddr (cmd op a d) = a.setWidth 21 := by
  ext n hn
  simp only [flashAddr, cmd, Config.addrMask, BitVec.getElem_extractLsb', BitVec.getLsbD_or, BitVec.getLsbD_shiftLeft,
    BitVec.getLsbD_setWidth, BitVec.getElem_setWidth]
  have h1 : 8 + n < 29 := by omega
  have h2 : d.getLsbD (8 + n) = false := BitVec.getLsbD_of_ge _ _ (by omega)
  have h4 : 8 + n < 32 := by omega
  have h5 : 8 + n - 8 = n := by omega
  have h3 : (0x1FFFFF#32).getLsbD n = true := by
    interval_cases n <;> decide
  simp [h1, h4, h5, h3]

theorem dataField_cmd (op : BitVec 3) (a : Word) (d : Byte) : dataField (cmd op a d) = d := by
  ext n hn
  simp only [dataField, cmd, Config.addrMask, BitVec.getElem_extractLsb', BitVec.getLsbD_or, BitVec.getLsbD_shiftLeft,
    BitVec.getLsbD_setWidth]
  have h1 : 0 + n < 29 := by omega
  have h2 : 0 + n < 8 := by omega
  have h4 : 0 + n < 32 := by omega
  have h5 : n < 29 := by omega
  have h6 : n < 32 := by omega
  simp [h5, hn, h6, BitVec.getLsbD_eq_getElem]

/-- Only the low 21 bits of an address operand reach the word (R91). -/
theorem cmd_setWidth (op : BitVec 3) (a : Word) (d : Byte) : cmd op ((a.setWidth 21).setWidth 32) d = cmd op a d := by
  have h : (a.setWidth 21).setWidth 32 &&& Config.addrMask = a &&& Config.addrMask := by
    ext n hn
    simp only [Config.addrMask, BitVec.getElem_and, BitVec.getElem_setWidth, BitVec.getLsbD_setWidth]
    by_cases h : n < 21
    · simp [h, BitVec.getLsbD_eq_getElem, hn]
    · have h3 : (0x1FFFFF#32).getLsbD n = false := by interval_cases n <;> first | omega | rfl
      rw [BitVec.getLsbD_eq_getElem hn] at h3
      simp [h3]
  simp only [cmd, h]

theorem decodeCmd_cmd_read (a : Word) (d : Byte) : decodeCmd (cmd 0#3 a d) = .read (a.setWidth 21) d := by
  simp [decodeCmd, opField_cmd, flashAddr_cmd, dataField_cmd]

theorem decodeCmd_cmd_write (a : Word) (d : Byte) : decodeCmd (cmd 1#3 a d) = .write (a.setWidth 21) d := by
  simp [decodeCmd, opField_cmd, flashAddr_cmd, dataField_cmd]

theorem decodeCmd_cmd_sectorErase (a : Word) (d : Byte) : decodeCmd (cmd 2#3 a d) = .sectorErase (a.setWidth 21) d := by
  simp [decodeCmd, opField_cmd, flashAddr_cmd, dataField_cmd]

theorem decodeCmd_cmd_pageProgram (a : Word) (d : Byte) : decodeCmd (cmd 4#3 a d) = .pageProgram (a.setWidth 21) d := by
  simp [decodeCmd, opField_cmd, flashAddr_cmd, dataField_cmd]

end Sys2Proof
end

