-- ==== Sys2Proof/Laws/Ops.lean ====
section
/-! SUPPORT. What each shared operation can do, once, for later proofs to cite. -/

namespace Sys2Proof.Machine

@[simp] theorem Seq.ofCode_code (q : Seq) : Seq.ofCode q.code = some q := by cases q <;> rfl

theorem Seq.code_of_ofCode {c : BitVec 4} {q : Seq} (h : Seq.ofCode c = some q) : c = q.code := by
  revert c q
  decide

theorem Seq.code_injective {p q : Seq} (h : p.code = q.code) : p = q := by
  have := congrArg Seq.ofCode h
  simpa using this

@[simp] theorem Seq.code_inj {p q : Seq} : p.code = q.code ↔ p = q := ⟨Seq.code_injective, fun h => h ▸ rfl⟩

/-- MAX_XFER is at least 65,536 (R6). -/
theorem le_maxXfer : 65536 ≤ Config.maxXfer := by
  unfold Config.maxXfer
  exact Nat.le_add_left _ _

theorem fitsXfer_iff {n : Nat} : Config.fitsXfer n = true ↔ n ≤ Config.maxXfer := by
  have h : 65536 ≤ Config.maxXfer := le_maxXfer
  simp only [Config.fitsXfer, Bool.or_eq_true, decide_eq_true_eq]
  exact ⟨fun h' => h'.elim (fun h1 => Nat.le_trans h1 h) id, .inr⟩

@[simp] theorem Result.andThen_next (s : State) (f : State → Result) : Result.andThen (.next s) f = f s := rfl

theorem Result.andThen_eq_next {r : Result} {f : State → Result} {s' : State} :
    r.andThen f = .next s' ↔ ∃ s, r = .next s ∧ f s = .next s' := by
  cases r <;> simp [Result.andThen]

/-- A register write answers a next state exactly when the bus answers, and then delivers the word and lets the bridge
react. -/
theorem State.regWrite_eq_next {v : Word} {react : Bridge → Bridge} {s s' : State} :
    s.regWrite v react = .next s' ↔
      s.busAnswers = true ∧
        s' = { s with
          bridge := if s.bridge.modelled then react s.bridge else s.bridge
          trace := .regWrite Config.regAddr v :: s.trace } := by
  unfold State.regWrite
  by_cases h : s.busAnswers = true
  · rw [if_pos h]
    exact ⟨fun e => ⟨h, by cases e; rfl⟩, fun e => by rw [e.2]⟩
  · rw [if_neg h]
    exact ⟨fun e => (nomatch e), fun e => absurd e.1 h⟩

/-- Everything a poll step can answer (R152): success, the timeout, or one more round. -/
theorem State.poll_eq_next {cond : Word → Bool} {limit : Nat} {wait : Wait} {pos : Word}
    {success : Word → Nat → State → State} {s s' : State} (h : s.poll cond limit wait pos success = .next s') :
    s.busAnswers = true ∧
      (cond s.sample = true ∧ s' = success s.sample s.sampled.now s.sampled.timed ∨
        cond s.sample = false ∧ limit ≤ s.sampled.now - s.t0 ∧
          s' = (s.sampled.timed.leaveUnsettled wait).respond .timeout (.timeout wait (s.sampled.now - s.t0) pos) [] ∨
        cond s.sample = false ∧ s.sampled.now - s.t0 < limit ∧ s' = s.sampled.timed) := by
  unfold State.poll at h
  split at h
  · rename_i hb
    refine ⟨hb, ?_⟩
    simp only at h
    split at h
    · rename_i hc
      exact .inl ⟨hc, by simpa using h.symm⟩
    · rename_i hc
      split at h
      · rename_i hl
        exact .inr (.inl ⟨by simpa using hc, hl, by simpa using h.symm⟩)
      · rename_i hl
        exact .inr (.inr ⟨by simpa using hc, by omega, by simpa using h.symm⟩)
  · simp at h

/-- Acceptance answers a next state exactly in IDLE and with nothing to refuse (R38). -/
theorem State.accept_eq_next {o : Operands} {refuse : Option Refusal} {first : State → State} {s s' : State} :
    s.accept o refuse first = .next s' ↔
      s.seq = Seq.idle.code ∧ refuse = none ∧ s' = first (s.latchOperands o) := by
  unfold State.accept
  split
  · rename_i hs
    cases refuse with
    | none => exact ⟨fun e => ⟨hs, rfl, by cases e; rfl⟩, fun e => by rw [e.2.2]⟩
    | some r => exact ⟨fun e => (nomatch e), fun e => (nomatch e.2.1)⟩
  · rename_i hs
    exact ⟨fun e => (nomatch e), fun e => absurd e.1 hs⟩

@[simp] theorem refuseCount_eq_none {count : Word} : refuseCount count = none ↔ count.toNat ≤ Config.maxXfer := by
  unfold refuseCount
  split <;> rename_i h <;> simp_all [fitsXfer_iff]

@[simp] theorem refuseData_eq_none {len : Word} {data : List Byte} :
    refuseData len data = none ↔ len.toNat = data.length ∧ data.length ≤ Config.maxXfer := by
  unfold refuseData
  split
  · split <;> rename_i h <;> simp_all [fitsXfer_iff]
  · simp_all

/-! ### Free flash bytes -/

@[simp] theorem freeBytes_length (draw n : Nat) : (freeBytes draw n).length = n := by simp [freeBytes]

/-! ### The words the sequencer issues -/

theorem State.issue_read (a : Word) (d : Byte) (s : State) :
    s.issue (cmd 0#3 a d) = s.regWrite (cmd 0#3 a d) (Bridge.takeRead (a.setWidth 21)) := by
  simp only [State.issue, decodeCmd_cmd_read, exec, execRead, cmd_setWidth]

theorem State.issue_write (a : Word) (d : Byte) (s : State) :
    s.issue (cmd 1#3 a d) = s.regWrite (cmd 1#3 a d) (Bridge.takeCommit (a.setWidth 21)) := by
  simp only [State.issue, decodeCmd_cmd_write, exec, execWrite, cmd_setWidth]

theorem State.issue_sectorErase (a : Word) (d : Byte) (s : State) :
    s.issue (cmd 2#3 a d) = s.regWrite (cmd 2#3 a d) (Bridge.takeErase (a.setWidth 21)) := by
  simp only [State.issue, decodeCmd_cmd_sectorErase, exec, execSectorErase, cmd_setWidth]

theorem State.issue_pageProgram (a : Word) (d : Byte) (s : State) :
    s.issue (cmd 4#3 a d) = s.regWrite (cmd 4#3 a d) (Bridge.takeLoad d) := by
  simp only [State.issue, decodeCmd_cmd_pageProgram, exec, execPageProgram, cmd_setWidth]

/-! ### The time base -/

/-- The time base never goes back (R150). -/
theorem State.last_le_now (s : State) : s.clock.last ≤ s.now := by
  unfold State.now
  split <;> omega

/-! ### The bridge keeps its flash in canonical form -/

theorem Bridge.takeRead_flash (a : FlashAddr) (b : Bridge) : (b.takeRead a).flash = b.flash := rfl

theorem Bridge.takeLoad_flash (d : Byte) (b : Bridge) : (b.takeLoad d).flash = b.flash := rfl

theorem Bridge.unsettle_flash_wf {a n : Nat} {b : Bridge} (h : b.flash.wf = true) : (b.unsettle a n).flash.wf = true :=
  Memory.program_wf _ _ h

/-- A byte outside an unsettled run reads as before. -/
theorem Bridge.read_unsettle_other {a n x : Nat} {b : Bridge} (h : ∀ j < n, x ≠ (a + j) % Config.flashBytes) :
    (b.unsettle a n).flash.read x = b.flash.read x :=
  Memory.read_program_other _ _ _ (by simpa using h)

/-- Everything a commit can do: the loaded bytes are stored inside one flash page, or the page's span is unsettled. -/
theorem Bridge.takeCommit_cases {a : FlashAddr} {b : Bridge} :
    (FitsPage a.toNat b.pbuf.length ∧ b.takeCommit a = { b with flash := b.flash.program a.toNat b.pbuf, pbuf := [] }) ∨
      (¬ FitsPage a.toNat b.pbuf.length ∧ b.takeCommit a = { b.unsettle a.toNat b.pbuf.length with pbuf := [] }) := by
  unfold Bridge.takeCommit
  by_cases h : FitsPage a.toNat b.pbuf.length
  · exact .inl ⟨h, if_pos h⟩
  · exact .inr ⟨h, if_neg h⟩

@[simp] theorem Bridge.takeCommit_posted {a : FlashAddr} {b : Bridge} : (b.takeCommit a).posted = b.posted :=
  Bridge.takeCommit_cases.elim (fun e => e.2 ▸ rfl) (fun e => e.2 ▸ rfl)

theorem Bridge.takeCommit_flash_wf {a : FlashAddr} {b : Bridge} (h : b.flash.wf = true) : (b.takeCommit a).flash.wf = true :=
  Bridge.takeCommit_cases.elim (fun e => e.2 ▸ Memory.program_wf _ _ h) (fun e => e.2 ▸ Memory.program_wf _ _ h)

theorem Bridge.takeErase_flash_wf {a : FlashAddr} {b : Bridge} (h : b.flash.wf = true) : (b.takeErase a).flash.wf = true :=
  Memory.eraseSector_wf _ h

/-! ### A timed-out wait -/

/-- Everything a timed-out wait can do to the bridge: its flash, kept in canonical form, and the counter of its free values; and
those only for an erase or a commit, on a bridge whose flash is in the state. -/
theorem State.unsettledBridge_eq (w : Wait) (s : State) : ∃ flash draws,
    s.unsettledBridge w = { s.bridge with flash := flash, flashDraws := draws } ∧
      (s.bridge.flash.wf = true → flash.wf = true) ∧
      (s.bridge.modelled = false ∨ w ≠ .eraseBusy ∧ w ≠ .programBusy → flash = s.bridge.flash ∧ draws = s.bridge.flashDraws) := by
  unfold State.unsettledBridge
  split
  · rename_i hm
    cases w with
    | eraseBusy => exact ⟨_, _, rfl, Memory.program_wf _ _, fun h => by simp [hm] at h⟩
    | programBusy => exact ⟨_, _, rfl, Memory.program_wf _ _, fun h => by simp [hm] at h⟩
    | await => exact ⟨_, _, rfl, id, fun _ => ⟨rfl, rfl⟩⟩
    | toggle => exact ⟨_, _, rfl, id, fun _ => ⟨rfl, rfl⟩⟩
    | readBusy => exact ⟨_, _, rfl, id, fun _ => ⟨rfl, rfl⟩⟩
  · exact ⟨_, _, rfl, id, fun _ => ⟨rfl, rfl⟩⟩

theorem State.unsettledBridge_flash_wf {w : Wait} {s : State} (h : s.bridge.flash.wf = true) :
    (s.unsettledBridge w).flash.wf = true := by
  obtain ⟨flash, draws, e, hw, -⟩ := s.unsettledBridge_eq w
  rw [e]
  exact hw h

/-- After a timed-out erase every byte outside its sector reads as before. -/
theorem State.read_unsettledBridge_erase {s : State} {x : Nat}
    (h : x / Config.sectorBytes ≠ (s.blockAddress.setWidth 21).toNat / Config.sectorBytes) :
    (s.unsettledBridge .eraseBusy).flash.read x = s.bridge.flash.read x := by
  unfold State.unsettledBridge
  split
  · refine Bridge.read_unsettle_other fun j hj => ?_
    have := (s.blockAddress.setWidth 21).isLt
    simp only [Config.sectorBytes, Config.flashBytes] at h hj ⊢
    omega
  · rfl

/-- After a timed-out commit every byte outside its page's span reads as before. -/
theorem State.read_unsettledBridge_program {s : State} {x : Nat}
    (h : ∀ j < s.plen.toNat, x ≠ ((s.commitAddress.setWidth 21).toNat + j) % Config.flashBytes) :
    (s.unsettledBridge .programBusy).flash.read x = s.bridge.flash.read x := by
  unfold State.unsettledBridge
  split
  · exact Bridge.read_unsettle_other h
  · rfl

/-! ### Fetching -/

/-- Nothing is fetched in a sequencer state other than IDLE with no word posted. -/
theorem State.fetch_eq_none {s : State} {q : Seq} (hp : s.bridge.posted = none) (hs : s.seq = q.code) (hq : q ≠ .idle) :
    s.fetch = none := by
  unfold State.fetch
  simp [hp, hs, hq]

/-- In a sequencer state other than IDLE the step is that state's own. -/
theorem step_of_at {s : State} {q : Seq} (h : Safety.At q s) (hq : q ≠ .idle) : step s = stepSeq q s := by
  obtain ⟨hs, hr, hp⟩ := h
  simp [step, hr, State.fetch_eq_none hp hs hq, stepUnfetched, hs]

end Sys2Proof.Machine
end

