-- ==== Sys2Proof/Laws/PerInstr.lean ====
section
/-! SUPPORT. The per-instruction family `TableRow`: an instruction's encoding matches its row of the opcode table (R94, R100). -/

namespace Sys2Proof.Laws.TableRow

/-- What the opcode table says of a row: match under the mask 0xE0000000 for a command word, or the kind of a request. -/
inductive Row where
  | cmd (pattern : Word)
  | req (kind : BitVec 3)

/-- The row of each instruction, from the opcode table. -/
def row : Instr → Row
  | .read _ _ => .cmd 0x00000000#32
  | .write _ _ => .cmd 0x20000000#32
  | .sectorErase _ _ => .cmd 0x40000000#32
  | .readStatus _ _ => .cmd 0x60000000#32
  | .pageProgram _ _ => .cmd 0x80000000#32
  | .reserved5 _ _ => .cmd 0xA0000000#32
  | .reserved6 _ _ => .cmd 0xC0000000#32
  | .reserved7 _ _ => .cmd 0xE0000000#32
  | .awaitNotBusy _ => .req 0#3
  | .readBytes _ _ _ => .req 1#3
  | .erase _ _ => .req 2#3
  | .pageProgramReq _ _ _ => .req 3#3
  | .writeReq _ _ _ _ => .req 4#3
  | .reqReserved5 => .req 5#3
  | .reqReserved6 => .req 6#3
  | .reqReserved7 => .req 7#3

/-- The encoding is of the row's format and matches the row. -/
def Statement (i : Instr) : Prop :=
  match encode i, row i with
  | .cmd w, .cmd p => w &&& 0xE0000000#32 = p
  | .req r, .req k => r.kind = k
  | .cmd _, .req _ => False
  | .req _, .cmd _ => False

/-- Under the table's mask only the operation field is left of a command word. -/
theorem cmd_and_mask (op : BitVec 3) (a : Word) (d : Byte) :
    cmd op a d &&& 0xE0000000#32 = op.setWidth 32 <<< 29 := by
  have hm : ∀ n < 29, (0xE0000000#32).getLsbD n = false := by decide
  have hm' : ∀ n, 29 ≤ n → n < 32 → (0xE0000000#32).getLsbD n = true := by
    intro n h1 h2
    interval_cases n <;> rfl
  ext n hn
  simp only [cmd, Config.addrMask, ← BitVec.getLsbD_eq_getElem hn, BitVec.getLsbD_and, BitVec.getLsbD_or,
    BitVec.getLsbD_shiftLeft, BitVec.getLsbD_setWidth]
  by_cases h : n < 29
  · simp [hm n h, h]
  · have h2 : d.getLsbD n = false := BitVec.getLsbD_of_ge _ _ (by omega)
    have h3 : (0x1FFFFF#32).getLsbD (n - 8) = false := by
      interval_cases n <;> first | omega | rfl
    rw [hm' n (by omega) hn, h2, h3]
    simp

theorem read (a : FlashAddr) (d : Byte) : Statement (.read a d) := cmd_and_mask ..
theorem write (a : FlashAddr) (d : Byte) : Statement (.write a d) := cmd_and_mask ..
theorem sectorErase (a : FlashAddr) (d : Byte) : Statement (.sectorErase a d) := cmd_and_mask ..
theorem readStatus (a : FlashAddr) (d : Byte) : Statement (.readStatus a d) := cmd_and_mask ..
theorem pageProgram (a : FlashAddr) (d : Byte) : Statement (.pageProgram a d) := cmd_and_mask ..
theorem reserved5 (a : FlashAddr) (d : Byte) : Statement (.reserved5 a d) := cmd_and_mask ..
theorem reserved6 (a : FlashAddr) (d : Byte) : Statement (.reserved6 a d) := cmd_and_mask ..
theorem reserved7 (a : FlashAddr) (d : Byte) : Statement (.reserved7 a d) := cmd_and_mask ..
theorem awaitNotBusy (t : Word) : Statement (.awaitNotBusy t) := rfl
theorem readBytes (a c : Word) (r : Bool) : Statement (.readBytes a c r) := rfl
theorem erase (a c : Word) : Statement (.erase a c) := rfl
theorem pageProgramReq (a l : Word) (d : List Byte) : Statement (.pageProgramReq a l d) := rfl
theorem writeReq (a l : Word) (d : List Byte) (r : Bool) : Statement (.writeReq a l d r) := rfl
theorem reqReserved5 : Statement .reqReserved5 := rfl
theorem reqReserved6 : Statement .reqReserved6 := rfl
theorem reqReserved7 : Statement .reqReserved7 := rfl

end Sys2Proof.Laws.TableRow
end

