-- ==== Sys2Proof/Laws/Step.lean ====
section
/-! SUPPORT. What a step can do, once: every next state of `step` is one of the cases of `StepCase`. -/

namespace Sys2Proof.Machine

open Sys2Proof.Safety

/-- The wait kind, the deadline and the reported position of a poll state (R154). -/
def pollParams (s : State) : Seq → Option (Wait × Nat × Word)
  | .awPoll => some (.await, s.tmo.toNat, 0#32)
  | .rdToggle => some (.toggle, Config.tToggleMs, s.i)
  | .rdBusy => some (.readBusy, Config.tReadBusyMs, s.i)
  | .erBusy => some (.eraseBusy, Config.tEraseMs, s.blockAddress &&& Config.addrMask)
  | .ppBusy => some (.programBusy, Config.tProgramMs, s.pbase)
  | _ => none

/-- The condition a poll state waits for, on the step's sample (R154). -/
def pollCond (s : State) : Seq → Bool
  | .rdToggle => stToggle s.sample != s.lastToggle
  | _ => !stBusy s.sample

/-- The state after a command word is delivered. -/
def State.delivered (v : Word) (react : Bridge → Bridge) (s : State) : State :=
  { s with
    bridge := if s.bridge.modelled then react s.bridge else s.bridge
    trace := .regWrite Config.regAddr v :: s.trace }

/-- The state with no word posted. -/
def State.unposted (s : State) : State := { s with bridge := { s.bridge with posted := none } }

/-- The state with the request port empty. -/
def State.unported (s : State) : State := { s with host := { s.host with port := none } }

/-- The next states of a state, case by case. -/
inductive StepCase (s : State) : State → Prop where
  | reset (h : s.host.resetLine = true) : StepCase s s.resetByLine
  | command (i : Instr) (v : Word) (t : State) (hr : s.host.resetLine = false) (hp : s.bridge.posted = some v)
      (hi : i = decodeCmd v) (h : exec i s.unposted = .next t) : StepCase s t
  | await (timeoutMs : Word) (h : At .idle s) :
      StepCase s ((s.unported.latchOperands
        { kind := kindAwait, addr := none, len := none, rev := none, tmo := some timeoutMs, wdata := none }).startWait .awPoll)
  | read (addr count : Word) (rev : Bool) (h : At .idle s) (hc : count.toNat ≤ Config.maxXfer) :
      StepCase s (s.unported.latchOperands
        { kind := kindReadBytes, addr := some addr, len := some count, rev := some rev, tmo := none, wdata := none }).startRead
  | erase (addr size : Word) (h : At .idle s) :
      StepCase s (s.unported.latchOperands
        { kind := kindErase, addr := some addr, len := some size, rev := none, tmo := none, wdata := none }).startErase
  | program (addr len : Word) (data : List Byte) (h : At .idle s) (hl : len.toNat = data.length)
      (hx : data.length ≤ Config.maxXfer) :
      StepCase s (s.unported.latchOperands
        { kind := kindPageProgram, addr := some addr, len := some len, rev := none, tmo := none,
          wdata := some data }).startProgram
  | write (addr len : Word) (data : List Byte) (rev : Bool) (h : At .idle s) (hl : len.toNat = data.length)
      (hx : data.length ≤ Config.maxXfer) :
      StepCase s (s.unported.latchOperands
        { kind := kindWrite, addr := some addr, len := some len, rev := some rev, tmo := none,
          wdata := some data }).startWrite
  | host (h : At .idle s) (hp : s.host.port = none) : StepCase s s.hostMove
  | again (q : Seq) (w : Wait) (limit : Nat) (pos : Word) (h : At q s) (hq : pollParams s q = some (w, limit, pos))
      (hb : s.busAnswers = true) (hc : pollCond s q = false) (hl : s.sampled.now - s.t0 < limit) : StepCase s s.sampled.timed
  | timeout (q : Seq) (w : Wait) (limit : Nat) (pos : Word) (h : At q s) (hq : pollParams s q = some (w, limit, pos))
      (hb : s.busAnswers = true) (hc : pollCond s q = false) (hl : limit ≤ s.sampled.now - s.t0) :
      StepCase s ((s.sampled.timed.leaveUnsettled w).respond .timeout (.timeout w (s.sampled.now - s.t0) pos) [])
  | awaitDone (h : At .awPoll s) (hb : s.busAnswers = true) (hc : stBusy s.sample = false) :
      StepCase s (s.sampled.timed.respond .ok .empty [])
  | seed (h : At .rdSeed s) (hb : s.busAnswers = true) :
      StepCase s { s.sampled with lastToggle := stToggle s.sample, toggleSeeded := true, seq := Seq.rdCmd.code }
  | readCmd (h : At .rdCmd s) (hb : s.busAnswers = true) :
      StepCase s ((s.delivered (cmd 0#3 s.readAddress 0#8) (Bridge.takeRead (s.readAddress.setWidth 21))).startWait .rdToggle)
  | edge (h : At .rdToggle s) (hb : s.busAnswers = true) (hc : stToggle s.sample ≠ s.lastToggle) :
      StepCase s (s.sampled.timed.edgeSeen s.sample s.sampled.now)
  | byteDone (h : At .rdBusy s) (hb : s.busAnswers = true) (hc : stBusy s.sample = false) :
      StepCase s s.sampled.timed.byteDone
  | eraseCmd (h : At .erCmd s) (hb : s.busAnswers = true) :
      StepCase s ((s.delivered (cmd 2#3 s.blockAddress 0#8) (Bridge.takeErase (s.blockAddress.setWidth 21))).startWait .erBusy)
  | blockDone (h : At .erBusy s) (hb : s.busAnswers = true) (hc : stBusy s.sample = false) :
      StepCase s s.sampled.timed.blockDone
  | load (w : Byte) (h : At .ppLoad s) (hb : s.busAnswers = true) (hw : s.wdata[s.loadIndex]? = some w) :
      StepCase s (s.delivered (cmd 4#3 0#32 (romIf s.loadReversed w)) (Bridge.takeLoad (romIf s.loadReversed w))).loadDone
  | commit (h : At .ppCommit s) (hb : s.busAnswers = true) :
      StepCase s ((s.delivered (cmd 1#3 s.commitAddress 0#8) (Bridge.takeCommit (s.commitAddress.setWidth 21))).startWait .ppBusy)
  | pageDone (h : At .ppBusy s) (hb : s.busAnswers = true) (hc : stBusy s.sample = false) :
      StepCase s s.sampled.timed.pageDone
  | held (h : At .respond s) (ht : s.host.takes = false) : StepCase s s
  | taken (r : Response) (h : At .respond s) (ht : s.host.takes = true) (hr : s.rsp = some r) :
      StepCase s { s with rsp := none, seq := Seq.idle.code, host := s.host.receive r }

theorem State.issueAndWait_eq_next {v : Word} {react : Bridge → Bridge} {q : Seq} {s t : State}
    (hi : s.issue v = s.regWrite v react) (h : s.issueAndWait v q = .next t) :
    s.busAnswers = true ∧ t = (s.delivered v react).startWait q := by
  obtain ⟨u, h1, h2⟩ := Result.andThen_eq_next.1 h
  obtain ⟨hb, rfl⟩ := State.regWrite_eq_next.1 (hi ▸ h1)
  exact ⟨hb, by cases h2; rfl⟩

/-- A request in the port is accepted in one of the five ways. -/
theorem stepCase_of_request {s t : State} {r : Request} (h : At .idle s) (hx : exec (decodeReq r) s.unported = .next t) :
    StepCase s t := by
  unfold decodeReq at hx
  split at hx
  · simp only [exec, execAwaitNotBusy] at hx
    obtain ⟨-, -, rfl⟩ := State.accept_eq_next.1 hx
    exact .await _ h
  · simp only [exec, execReadBytes] at hx
    obtain ⟨-, hc, rfl⟩ := State.accept_eq_next.1 hx
    exact .read _ _ _ h (refuseCount_eq_none.1 hc)
  · simp only [exec, execErase] at hx
    obtain ⟨-, -, rfl⟩ := State.accept_eq_next.1 hx
    exact .erase _ _ h
  · simp only [exec, execPageProgramReq] at hx
    obtain ⟨-, hd, rfl⟩ := State.accept_eq_next.1 hx
    exact .program _ _ _ h (refuseData_eq_none.1 hd).1 (refuseData_eq_none.1 hd).2
  · simp only [exec, execWriteReq] at hx
    obtain ⟨-, hd, rfl⟩ := State.accept_eq_next.1 hx
    exact .write _ _ _ _ h (refuseData_eq_none.1 hd).1 (refuseData_eq_none.1 hd).2
  · exact nomatch hx
  · exact nomatch hx
  · exact nomatch hx

/-- A poll state's step is one of its success, its timeout and one more round. -/
theorem stepCase_of_poll {s t : State} {q : Seq} {cond : Word → Bool} {limit : Nat} {w : Wait} {pos : Word}
    {success : Word → Nat → State → State} (h : At q s) (hq : pollParams s q = some (w, limit, pos))
    (hcond : cond s.sample = pollCond s q)
    (hs : s.busAnswers = true → cond s.sample = true → StepCase s (success s.sample s.sampled.now s.sampled.timed))
    (hx : s.poll cond limit w pos success = .next t) : StepCase s t := by
  obtain ⟨hb, ⟨hc, rfl⟩ | ⟨hc, hl, rfl⟩ | ⟨hc, hl, rfl⟩⟩ := State.poll_eq_next hx
  · exact hs hb hc
  · exact .timeout q w limit pos h hq hb (hcond ▸ hc) hl
  · exact .again q w limit pos h hq hb (hcond ▸ hc) hl

/-- The step of a sequencer state when nothing is fetched. -/
theorem stepCase_of_seq {s t : State} {q : Seq} (h : At q s) (hp : q = .idle → s.host.port = none)
    (hx : stepSeq q s = .next t) : StepCase s t := by
  cases q with
  | idle => cases hx; exact .host h (hp rfl)
  | awPoll =>
    simp only [stepSeq, stepAwPoll] at hx
    exact stepCase_of_poll h rfl rfl (fun hb hc => .awaitDone h hb (by simpa using hc)) hx
  | rdSeed =>
    simp only [stepSeq, stepRdSeed] at hx
    by_cases hb : s.busAnswers = true
    · rw [if_pos hb] at hx
      cases hx
      exact .seed h hb
    · rw [if_neg hb] at hx
      exact nomatch hx
  | rdCmd =>
    obtain ⟨hb, rfl⟩ := State.issueAndWait_eq_next (State.issue_read _ _ _) hx
    exact .readCmd h hb
  | rdToggle =>
    simp only [stepSeq, stepRdToggle] at hx
    exact stepCase_of_poll h rfl rfl (fun hb hc => .edge h hb (by simpa using hc)) hx
  | rdBusy =>
    simp only [stepSeq, stepRdBusy] at hx
    exact stepCase_of_poll h rfl rfl (fun hb hc => .byteDone h hb (by simpa using hc)) hx
  | erCmd =>
    obtain ⟨hb, rfl⟩ := State.issueAndWait_eq_next (State.issue_sectorErase _ _ _) hx
    exact .eraseCmd h hb
  | erBusy =>
    simp only [stepSeq, stepErBusy] at hx
    exact stepCase_of_poll h rfl rfl (fun hb hc => .blockDone h hb (by simpa using hc)) hx
  | ppLoad =>
    simp only [stepSeq, stepPpLoad] at hx
    cases hw : s.wdata[s.loadIndex]? with
    | none => rw [hw] at hx; exact nomatch hx
    | some w =>
      rw [hw] at hx
      obtain ⟨u, h1, h2⟩ := Result.andThen_eq_next.1 hx
      rw [State.issue_pageProgram] at h1
      obtain ⟨hb, rfl⟩ := State.regWrite_eq_next.1 h1
      cases h2
      exact .load w h hb hw
  | ppCommit =>
    obtain ⟨hb, rfl⟩ := State.issueAndWait_eq_next (State.issue_write _ _ _) hx
    exact .commit h hb
  | ppBusy =>
    simp only [stepSeq, stepPpBusy] at hx
    exact stepCase_of_poll h rfl rfl (fun hb hc => .pageDone h hb (by simpa using hc)) hx
  | respond =>
    simp only [stepSeq, stepRespond] at hx
    by_cases ht : s.host.takes = true
    · rw [if_pos ht] at hx
      cases hr : s.rsp with
      | none => rw [hr] at hx; exact nomatch hx
      | some r => rw [hr] at hx; cases hx; exact .taken r h ht hr
    · rw [if_neg ht] at hx
      cases hx
      exact .held h (by simpa using ht)

/-- Everything a step can do. -/
theorem step_cases {s t : State} (hx : step s = .next t) : StepCase s t := by
  unfold step at hx
  by_cases hr : s.host.resetLine = true
  · rw [if_pos hr] at hx
    cases hx
    exact .reset hr
  · rw [if_neg hr] at hx
    have hr' : s.host.resetLine = false := by simpa using hr
    cases hp : s.bridge.posted with
    | some v =>
      have hf : s.fetch = some (decodeCmd v, s.unposted) := by simp only [State.fetch, hp]; rfl
      rw [hf] at hx
      exact .command _ v t hr' hp rfl hx
    | none =>
      by_cases hi : s.seq = Seq.idle.code
      · cases hport : s.host.port with
        | some r =>
          have hf : s.fetch = some (decodeReq r, s.unported) := by
            unfold State.fetch
            rw [hp]
            simp only
            rw [if_pos hi, hport]
            rfl
          rw [hf] at hx
          exact stepCase_of_request ⟨hi, hr', hp⟩ hx
        | none =>
          have hf : s.fetch = none := by
            unfold State.fetch
            rw [hp]
            simp only
            rw [if_pos hi, hport]
          rw [hf] at hx
          simp only [stepUnfetched, hi, Seq.ofCode_code] at hx
          exact stepCase_of_seq ⟨hi, hr', hp⟩ (fun _ => hport) hx
      · have hf : s.fetch = none := by simp only [State.fetch, hp, if_neg hi]
        rw [hf] at hx
        unfold stepUnfetched at hx
        cases hq : Seq.ofCode s.seq with
        | none => rw [hq] at hx; exact nomatch hx
        | some q =>
          rw [hq] at hx
          have hc := Seq.code_of_ofCode hq
          exact stepCase_of_seq ⟨hc, hr', hp⟩ (fun h => absurd (h ▸ hc) hi) hx

/-- Everything a delivered command word can do: the word is on record, and the bridge keeps its flash in canonical form. -/
theorem exec_command_eq_next {v : Word} {s t : State} (h : exec (decodeCmd v) s = .next t) :
    ∃ w react, s.busAnswers = true ∧ t = s.delivered w react ∧
      (∀ b : Bridge, b.flash.wf = true → (react b).flash.wf = true) ∧ ∀ b : Bridge, (react b).posted = b.posted := by
  unfold decodeCmd at h
  split at h
  · simp only [exec, execRead] at h
    obtain ⟨hb, rfl⟩ := State.regWrite_eq_next.1 h
    exact ⟨_, _, hb, rfl, fun b hw => hw, fun _ => rfl⟩
  · simp only [exec, execWrite] at h
    obtain ⟨hb, rfl⟩ := State.regWrite_eq_next.1 h
    exact ⟨_, _, hb, rfl, fun b hw => Bridge.takeCommit_flash_wf hw, fun _ => Bridge.takeCommit_posted⟩
  · simp only [exec, execSectorErase] at h
    obtain ⟨hb, rfl⟩ := State.regWrite_eq_next.1 h
    exact ⟨_, _, hb, rfl, fun b hw => Bridge.takeErase_flash_wf hw, fun _ => rfl⟩
  · simp only [exec, execReadStatus] at h
    obtain ⟨hb, rfl⟩ := State.regWrite_eq_next.1 h
    exact ⟨_, _, hb, rfl, fun b hw => hw, fun _ => rfl⟩
  · simp only [exec, execPageProgram] at h
    obtain ⟨hb, rfl⟩ := State.regWrite_eq_next.1 h
    exact ⟨_, _, hb, rfl, fun b hw => hw, fun _ => rfl⟩
  · simp only [exec, execReserved5] at h
    obtain ⟨hb, rfl⟩ := State.regWrite_eq_next.1 h
    exact ⟨_, _, hb, rfl, fun b hw => hw, fun _ => rfl⟩
  · simp only [exec, execReserved6] at h
    obtain ⟨hb, rfl⟩ := State.regWrite_eq_next.1 h
    exact ⟨_, _, hb, rfl, fun b hw => hw, fun _ => rfl⟩
  · simp only [exec, execReserved7] at h
    obtain ⟨hb, rfl⟩ := State.regWrite_eq_next.1 h
    exact ⟨_, _, hb, rfl, fun b hw => hw, fun _ => rfl⟩

/-- The host's move changes no block register, unless it starts a session with a reset of the block. -/
theorem State.hostMove_cases (s : State) :
    (∃ h, s.hostMove = { s with host := h }) ∨
      s.host.phase = .start ∧ s.host.session = false ∧ ∃ h, s.hostMove = { s.blockReset with host := h } := by
  unfold State.hostMove
  split
  · rename_i hp
    unfold State.startOperation
    by_cases hc : s.host.op = .writeRpd ∧ Config.maxRpdBytes < s.host.fileLen
    · exact .inl ⟨_, if_pos hc⟩
    · by_cases hs : s.host.session = true
      · simp only [hc, hs, if_true, if_false]
        split <;> exact .inl ⟨_, rfl⟩
      · simp only [hc, hs, if_false]
        exact .inr ⟨hp, trivial, _, rfl⟩
  all_goals exact .inl ⟨_, rfl⟩

/-! ### Runs of several steps -/

theorem run_succ (M : Host.Core) {s t : M.State} (n : Nat) (h : M.step s = .next t) : M.run (n + 1) s = M.run n t := by
  simp only [Host.Core.run, h]

theorem run_add (M : Host.Core) (m n : Nat) {s t : M.State} (h : M.run m s = .next t) : M.run (m + n) s = M.run n t := by
  induction m generalizing s with
  | zero => cases h; rw [Nat.zero_add]
  | succ m ih =>
    rw [Nat.add_right_comm]
    cases hs : M.step s with
    | next u => rw [run_succ M _ hs] at h ⊢; exact ih h
    | fault e => simp only [Host.Core.run, hs] at h; exact nomatch h
    | refused e => simp only [Host.Core.run, hs] at h; exact nomatch h

@[simp] theorem core_run_zero (s : State) : core.run 0 s = .next s := rfl

/-- A run goes on from the next state. -/
theorem core_run_succ {s t : State} (n : Nat) (h : step s = .next t) : core.run (n + 1) s = core.run n t :=
  run_succ core n h

/-- Two runs, one after the other. -/
theorem core_run_add {s t : State} (m n : Nat) (h : core.run m s = .next t) : core.run (m + n) s = core.run n t :=
  run_add core m n h

end Sys2Proof.Machine
end

