-- ==== Sys2Proof/Tests/Slice0.lean ====
section
/-! SUPPORT. The model's own tests, each of one step or one function on a small state with its result taken from the spec, and
a witness for every statement with hypotheses. -/

namespace Sys2Proof.Tests

open Sys2Proof.Machine Sys2Proof.Safety

/-! ### Helpers -/

/-- The next state of a result, if it is one. -/
def next? (r : Result) : Option State :=
  match r with
  | .next s => some s
  | .fault _ => none
  | .refused _ => none

/-- The fault of a result, if it is one. -/
def fault? (r : Result) : Option Fault :=
  match r with
  | .next _ => none
  | .fault e => some e
  | .refused _ => none

/-- The refusal of a result, if it is one. -/
def refusal? (r : Result) : Option Refusal :=
  match r with
  | .next _ => none
  | .fault _ => none
  | .refused e => some e

/-- The command words on record. -/
def written (s : State) : List Word :=
  s.trace.filterMap fun e =>
    match e with
    | .regWrite _ v => some v
    | .regRead _ _ => none
    | .time _ => none

/-- The reset state on a bridge of the given kind. -/
def onKind (k : BridgeKind) : State := { State.reset with bridge := { Bridge.start with kind := k } }

/-- The reset state on the reference bridge with the given flash contents. -/
def onFlash (m : Memory) : State := { State.reset with bridge := { Bridge.start with kind := .reference, flash := m } }

/-- A state in the given sequencer state. -/
def at' (q : Seq) (s : State) : State := { s with seq := q.code }

/-- The next samples and time increments. -/
def inject (samples : List Word) (steps : List Nat) (s : State) : State :=
  { s with bridge := { s.bridge with script := samples }, clock := { s.clock with script := steps } }

/-- A request in the port. -/
def present (r : Request) (s : State) : State := { s with host := { s.host with port := some r } }

/-- A READ_BYTES request in progress: two bytes from 0x10, in state `q`. -/
def reading (q : Seq) (rev : Bool) : State :=
  { onFlash [(0x10, 0x12#8), (0x11, 0x34#8)] with
    seq := q.code, kind := kindReadBytes, addr := 0x10#32, len := 2#32, rev := rev, toggleSeeded := true }

/-- An ERASE request in progress: two blocks from 0xF0000, in state `q`. -/
def erasing (q : Seq) : State :=
  { onFlash [(0xF0000, 0#8), (0x100000, 0#8)] with
    seq := q.code, kind := kindErase, addr := 0xF0000#32, len := 0x20000#32, nblk := 2#32 }

/-- A WRITE request's program part in progress, in state `q`: two bytes at 0x10000 (V7.1). -/
def programming (q : Seq) : State :=
  { onKind .reference with
    seq := q.code, kind := kindWrite, addr := 0x10000#32, len := 2#32, rev := true, wdata := [0x01#8, 0x80#8],
    nblk := 1#32, k := 1#32, plen := 2#9, j := if q = .ppLoad then 0#9 else 2#9 }

/-- A finished request with a response pending. -/
def responding (r : Response) : State := { onKind .reference with seq := Seq.respond.code, rsp := some r }

/-- A Timeout response of a block's wait. -/
def timeoutRsp : Response :=
  { code := .timeout, info := .timeout .eraseBusy 2500 0#32, data := [], diagIe := false, diagIw := true }

/-- An OK response. -/
def okRsp : Response := { code := .ok, info := .empty, data := [], diagIe := false, diagIw := false }

/-- The start of a host operation. -/
def hosting (op : HostOp) (phase : HostPhase) (file : List Byte) (fileLen : Nat) : State :=
  { onKind .reference with
    host := { HostState.start with op := op, phase := phase, file := file, fileLen := fileLen, image := .application } }

/-! ### Well-formedness (R38, R99): an ill-formed term for each check -/

theorem test_wf_count_too_large : (Instr.readBytes 0#32 65537#32 false).wfWithin (fun n => decide (n ≤ 65536)) = false := by
  decide

theorem test_wf_page_length_mismatch : (Instr.pageProgramReq 0#32 2#32 [1#8]).wf = false := by decide

theorem test_wf_page_data_too_large :
    (Instr.pageProgramReq 0#32 2#32 [1#8, 2#8]).wfWithin (fun n => decide (n ≤ 1)) = false := by
  decide

theorem test_wf_write_length_mismatch : (Instr.writeReq 0#32 0#32 [1#8] true).wf = false := by decide

theorem test_wf_write_data_too_large :
    (Instr.writeReq 0#32 2#32 [1#8, 2#8] true).wfWithin (fun n => decide (n ≤ 1)) = false := by
  decide

theorem test_wf_reserved_kinds : [Instr.reqReserved5, .reqReserved6, .reqReserved7].map Instr.wf = [false, false, false] := by
  decide

theorem test_wf_accepts :
    [Instr.awaitNotBusy 2500#32, .readBytes 0#32 65536#32 true, .erase 0x8000#32 1#32, .pageProgramReq 0#32 1#32 [7#8],
      .writeReq 0#32 0#32 [] true, .reserved7 0#21 0#8].map Instr.wf = [true, true, true, true, true, true] := by
  decide

/-- R99: a data field on READ or WRITE, an unaligned SECTOR_ERASE, an address on a load, READ_STATUS and the reserved
operations are never emitted. -/
theorem test_emittable_refuses :
    [Instr.read 0x123456#21 0x78#8, .write 0#21 1#8, .sectorErase 0x8000#21 0#8, .sectorErase 0#21 1#8,
      .pageProgram 1#21 0#8, .readStatus 0#21 0#8, .reserved5 0#21 0#8, .reserved6 0#21 0#8,
      .reserved7 0#21 0#8].all (fun i => !i.emittable) = true := by
  decide

theorem test_emittable_accepts :
    [Instr.read 0x1FFFFF#21 0#8, .write 0x0F0000#21 0#8, .sectorErase 0x1F0000#21 0#8,
      .pageProgram 0#21 0xAB#8].all Instr.emittable = true := by
  decide

/-! ### Encoding (V2 and R100): words written out from the spec's tables -/

theorem test_decode_read : decodeCmd 0x1FFFFF00#32 = .read 0x1FFFFF#21 0#8 := by decide
theorem test_decode_write : decodeCmd 0x2F000000#32 = .write 0x0F0000#21 0#8 := by decide
theorem test_decode_sectorErase : decodeCmd 0x5F000000#32 = .sectorErase 0x1F0000#21 0#8 := by decide
theorem test_decode_readStatus : decodeCmd 0x60000000#32 = .readStatus 0#21 0#8 := by decide
theorem test_decode_pageProgram : decodeCmd 0x800000AB#32 = .pageProgram 0#21 0xAB#8 := by decide
theorem test_decode_reserved5 : decodeCmd 0xA0000000#32 = .reserved5 0#21 0#8 := by decide
theorem test_decode_reserved6 : decodeCmd 0xC0000000#32 = .reserved6 0#21 0#8 := by decide
theorem test_decode_reserved7 : decodeCmd 0xE0000000#32 = .reserved7 0#21 0#8 := by decide

/-- One bit of each field of the word: bit 31 is the operation's top bit, bit 28 the address's, bit 7 the data's. -/
theorem test_decode_field_edges : decodeCmd 0x90000180#32 = .pageProgram 0x100001#21 0x80#8 := by decide

theorem test_decode_awaitNotBusy : decodeReq { emptyReq 0#3 with timeoutMs := 2500#32 } = .awaitNotBusy 2500#32 := by decide

theorem test_decode_readBytes :
    decodeReq { emptyReq 1#3 with addr := 0x10#32, len := 1#32, reverse := true } = .readBytes 0x10#32 1#32 true := by
  decide

theorem test_decode_erase :
    decodeReq { emptyReq 2#3 with addr := 0xF0000#32, len := 0x20000#32 } = .erase 0xF0000#32 0x20000#32 := by
  decide

theorem test_decode_pageProgramReq :
    decodeReq { emptyReq 3#3 with addr := 0x100#32, len := 2#32, data := [0x12#8, 0x34#8] } =
      .pageProgramReq 0x100#32 2#32 [0x12#8, 0x34#8] := by
  decide

theorem test_decode_writeReq :
    decodeReq { emptyReq 4#3 with addr := 0x10000#32, len := 1#32, data := [1#8], reverse := true } =
      .writeReq 0x10000#32 1#32 [1#8] true := by
  decide

theorem test_decode_reserved_kinds :
    [decodeReq (emptyReq 5#3), decodeReq (emptyReq 6#3), decodeReq (emptyReq 7#3)] =
      [.reqReserved5, .reqReserved6, .reqReserved7] := by
  decide

/-- The rows of the opcode table: eight words under the mask 0xE0000000, eight request kinds. -/
theorem test_table_words :
    [0x00000000, 0x20000000, 0x40000000, 0x60000000, 0x80000000, 0xA0000000, 0xC0000000, 0xE0000000].map
        (decodeTableWord 32) =
      [some (.read 0#21 0#8), some (.write 0#21 0#8), some (.sectorErase 0#21 0#8), some (.readStatus 0#21 0#8),
        some (.pageProgram 0#21 0#8), some (.reserved5 0#21 0#8), some (.reserved6 0#21 0#8),
        some (.reserved7 0#21 0#8)] := by
  decide

theorem test_table_kinds :
    [0, 1, 2, 3, 4, 5, 6, 7].map (decodeTableWord 8) =
      [some (.awaitNotBusy 0#32), some (.readBytes 0#32 0#32 false), some (.erase 0#32 0#32),
        some (.pageProgramReq 0#32 0#32 []), some (.writeReq 0#32 0#32 [] false), some .reqReserved5, some .reqReserved6,
        some .reqReserved7] := by
  decide

theorem test_table_other_sizes : [decodeTableWord 0 0, decodeTableWord 16 0, decodeTableWord 64 0] = [none, none, none] := by
  decide

/-- The words of V2's table. -/
theorem test_cmd_words :
    [cmd 0#3 0x10#32 0#8, cmd 0#3 0x123456#32 0#8, cmd 0#3 0x1FFFFF#32 0#8, cmd 0#3 0x200000#32 0#8,
        cmd 0#3 0xFFFFFFFF#32 0#8, cmd 1#3 0x0F0000#32 0#8, cmd 1#3 0x100#32 0#8, cmd 2#3 0x120000#32 0#8,
        cmd 2#3 0x1F0000#32 0#8, cmd 4#3 0#32 0xAB#8] =
      [0x00001000#32, 0x12345600#32, 0x1FFFFF00#32, 0x00000000#32, 0x1FFFFF00#32, 0x2F000000#32, 0x20010000#32,
        0x52000000#32, 0x5F000000#32, 0x800000AB#32] := by
  decide

/-- V2's two status words. -/
theorem test_status_fields :
    (let v := 0x000F00AB#32; (stToggle v, stIllegalErase v, stIllegalWrite v, stBusy v, stStatus v, stData v)) =
        (true, true, true, true, 0x00#8, 0xAB#8) ∧
      (let v := 0xFFF0FF00#32; (stToggle v, stIllegalErase v, stIllegalWrite v, stBusy v, stStatus v, stData v)) =
        (false, false, false, false, 0xFF#8, 0x00#8) := by
  decide

/-- V1's table. -/
theorem test_rom_vectors :
    [0x00#8, 0x01#8, 0x02#8, 0x09#8, 0x0F#8, 0x12#8, 0x35#8, 0x55#8, 0x80#8, 0xA5#8, 0xC3#8, 0xFE#8, 0xFF#8, 0xAC#8,
        0x3C#8].map rom =
      [0x00#8, 0x80#8, 0x40#8, 0x90#8, 0xF0#8, 0x48#8, 0xAC#8, 0xAA#8, 0x01#8, 0xA5#8, 0xC3#8, 0x7F#8, 0xFF#8, 0x35#8,
        0x3C#8] := by
  decide

/-- R124: the second row of the ROM's table. -/
theorem test_rom_row_1x :
    ((List.range 16).map fun n => rom (BitVec.ofNat 8 (0x10 + n))) =
      [0x08#8, 0x88#8, 0x48#8, 0xC8#8, 0x28#8, 0xA8#8, 0x68#8, 0xE8#8, 0x18#8, 0x98#8, 0x58#8, 0xD8#8, 0x38#8, 0xB8#8,
        0x78#8, 0xF8#8] := by
  decide

/-! ### Command words on the reference bridge (R142), through `step` -/

theorem test_read_presents_and_flips :
    (next? (step ((onFlash [(0x10, 0x12#8)]).withFetchWord 32 0x00001000))).map
        (fun t => (t.bridge.dat, t.bridge.tog, t.bridge.posted, t.seq)) = some (0x12#8, true, none, 0#4) := by
  decide

theorem test_read_constant_toggle :
    (next? (step ((onKind .constantToggle).withFetchWord 32 0))).map (fun t => (t.bridge.dat, t.bridge.tog)) =
      some (0xFF#8, false) := by
  decide

/-- R142: a commit stores the buffer at the last bytes of the flash, with no free value used. -/
theorem test_commit_at_the_top :
    (next? (execWrite 0x1FFFFE#21 0#8
        { onKind .reference with bridge := { (onKind .reference).bridge with pbuf := [1#8, 2#8] } })).map
      (fun t => (t.bridge.flash, t.bridge.pbuf, t.bridge.flashDraws)) =
      some ([(0x1FFFFE, 1#8), (0x1FFFFF, 2#8)], [], 0) := by
  decide

/-- V6.6: a commit across a page boundary uses free values. -/
theorem test_commit_across_pages :
    (next? (execWrite 0x0000F0#21 0#8
        { onKind .reference with bridge := { (onKind .reference).bridge with pbuf := List.replicate 17 0#8 } })).map
      (fun t => (t.bridge.pbuf, t.bridge.flashDraws)) = some ([], 1) := by
  decide

theorem test_sectorErase_clears_one_sector :
    (next? (step ((onFlash [(0xFFFF, 1#8), (0x10000, 2#8), (0x1FFFF, 3#8), (0x20000, 4#8)]).withFetchWord 32 0x41000000))).map
        (fun t => t.bridge.flash) = some [(0xFFFF, 1#8), (0x20000, 4#8)] := by
  decide

theorem test_load_appends :
    (next? (step ((onKind .reference).withFetchWord 32 0x80000048))).map (fun t => t.bridge.pbuf) = some [0x48#8] := by
  decide

theorem test_readStatus_and_reserved_change_no_bridge_state :
    [0x60000000, 0xA0000000, 0xC0000000, 0xE0000000].map
        (fun w => (next? (step ((onKind .reference).withFetchWord 32 w))).map (fun t => t.bridge)) =
      List.replicate 4 (some (onKind .reference).bridge) := by
  decide

/-- Every table word runs as the first instruction after reset; the reserved kinds are refused by name. -/
theorem test_words_run_from_reset :
    [0x00000000, 0x20000000, 0x40000000, 0x60000000, 0x80000000, 0xA0000000, 0xC0000000, 0xE0000000].map
        (fun w => (next? (step (State.reset.withFetchWord 32 w))).map written) =
      [0x00000000#32, 0x20000000#32, 0x40000000#32, 0x60000000#32, 0x80000000#32, 0xA0000000#32, 0xC0000000#32,
        0xE0000000#32].map (fun w => some [w]) := by
  decide

theorem test_kinds_run_from_reset :
    [0, 1, 2, 3, 4].map (fun k => (next? (step (State.reset.withFetchWord 8 k))).map (fun t => (t.kind, t.seq))) =
      [some (0#3, 1#4), some (1#3, 11#4), some (2#3, 11#4), some (3#3, 11#4), some (4#3, 6#4)] := by
  decide

theorem test_reserved_kinds_from_reset :
    [5, 6, 7].map (fun k => refusal? (step (State.reset.withFetchWord 8 k))) =
      [some (.reservedKind 5#3), some (.reservedKind 6#3), some (.reservedKind 7#3)] := by
  decide

theorem test_noAnswer_is_stuck :
    fault? (step ((onKind .noAnswer).withFetchWord 32 0)) = some .accessNeverCompletes := by
  decide

/-! ### AWAIT_NOT_BUSY (V3) -/

/-- A stuck-busy sample at the given elapsed time. -/
def awaiting (tmo : Word) (sample : Word) (elapsed : Nat) : State :=
  inject [sample] [elapsed] { at' .awPoll (onKind .reference) with tmo := tmo }

/-- V3.3: at the deadline, not before. -/
theorem test_await_deadline :
    (next? (step (awaiting 2500#32 0x00010000#32 2499))).map (fun t => (t.seq, t.rsp)) = some (1#4, none) ∧
    (next? (step (awaiting 2500#32 0x00010000#32 2500))).map (fun t => (t.seq, t.rsp.map fun r => (r.code, r.info))) =
      some (11#4, some (.timeout, .timeout .await 2500 0#32)) := by
  decide

/-- V3.5, V3.7, V3.8, V3.9: the condition comes before the deadline; bit 18 is recorded; bits 31:20 and 15:8 are ignored. -/
theorem test_await_ok :
    [awaiting 0#32 0#32 0, awaiting 100#32 0#32 5000, awaiting 10#32 0x00040000#32 0, awaiting 10#32 0xFFF0FF00#32 0].map
        (fun s => (next? (step s)).bind fun t => t.rsp) =
      [some okRsp, some okRsp, some { okRsp with diagIe := true }, some okRsp] := by
  decide

/-! ### READ_BYTES (V4) -/

/-- V4.4: a zero count is answered at once. -/
theorem test_read_count_zero :
    (next? (step (present { emptyReq 1#3 with reverse := true } State.reset))).map
        (fun t => (t.rsp, t.toggleSeeded, t.trace)) = some (some okRsp, false, []) := by
  decide

/-- V4.1: the seed sample. -/
theorem test_read_seed :
    (next? (step (inject [0x00080003#32] [] { reading .rdSeed false with toggleSeeded := false }))).map
        (fun t => (t.lastToggle, t.toggleSeeded, t.seq)) = some (true, true, 3#4) := by
  decide

/-- V4.3: the second byte's address wraps to 0. -/
theorem test_read_command_wraps :
    (next? (step { reading .rdCmd false with addr := 0x1FFFFF#32, i := 1#32 })).map (fun t => written t) =
      some [0x00000000#32] := by
  decide

/-- V4.6: an edge counts while busy is set, and V4.7: at the deadline too. -/
theorem test_read_edge :
    [inject [0x000900FF#32] [60] (reading .rdToggle false), inject [0x00080077#32] [100] (reading .rdToggle false)].map
        (fun s => (next? (step s)).map fun t => (t.seq, t.latched, t.lastToggle, t.t0)) =
      [some (5#4, 0xFF#8, true, 60), some (5#4, 0x77#8, true, 100)] := by
  decide

/-- V4.5: no edge at 50 ms goes on; at 100 ms it is a timeout, and no data is returned. -/
theorem test_read_toggle_timeout :
    (next? (step (inject [0x000000FF#32] [50] (reading .rdToggle true)))).map (fun t => t.seq) = some 4#4 ∧
    (next? (step (inject [0x000000FF#32] [100] (reading .rdToggle true)))).map (fun t => (t.rsp, t.lastToggle)) =
      some (some { okRsp with code := .timeout, info := .timeout .toggle 100 0#32 }, false) := by
  decide

/-- V4.8: the last byte, without and with reversal. -/
theorem test_read_last_byte :
    [false, true].map (fun rev =>
        (next? (step { inject [0#32] [0] (reading .rdBusy rev) with
          i := 1#32, rdata := [0x01#8], latched := 0x02#8 })).bind fun t => t.rsp) =
      [some { okRsp with data := [0x01#8, 0x02#8] }, some { okRsp with data := [0x01#8, 0x40#8] }] := by
  decide

/-- V4.6: busy stuck after the edge. -/
theorem test_read_busy_timeout :
    (next? (step (inject [0x000900FF#32] [120] (reading .rdBusy false)))).bind (fun t => t.rsp) =
      some { okRsp with code := .timeout, info := .timeout .readBusy 120 0#32 } := by
  decide

/-! ### ERASE (V5) -/

/-- V5.7, V5.8: unaligned addresses, the second on a bit above the flash's. -/
theorem test_erase_unaligned :
    [(0x8000#32, 0x10000#32), (0x200001#32, 1#32)].map (fun p =>
        (next? (execErase p.1 p.2 State.reset)).map fun t => (t.rsp, t.trace)) =
      [some (some { okRsp with code := .alignmentError, info := .alignment .eraseAddrUnaligned 0x8000#32 0x10000#32 }, []),
        some (some { okRsp with code := .alignmentError, info := .alignment .eraseAddrUnaligned 0x200001#32 1#32 }, [])] := by
  decide

/-- V5.2 to V5.5: block counts. -/
theorem test_erase_blocks :
    [0#32, 1#32, 65536#32, 65537#32].map (fun n => (next? (execErase 0#32 n State.reset)).map fun t => (t.seq, t.nblk)) =
      [some (11#4, 0#32), some (6#4, 1#32), some (6#4, 1#32), some (6#4, 2#32)] := by
  decide

/-- V5.1, V5.6: the second block's word, and the wrap to sector 0. -/
theorem test_erase_words :
    [{ erasing .erCmd with k := 1#32 }, { erasing .erCmd with addr := 0x1F0000#32, k := 1#32 }].map
        (fun s => (next? (step s)).map fun t => (written t, t.seq)) =
      [some ([0x50000000#32], 7#4), some ([0x40000000#32], 7#4)] := by
  decide

/-- V5.10: a timeout reports the failing block's address, masked. -/
theorem test_erase_timeout :
    (next? (step (inject [0x00010000#32] [3000] { erasing .erBusy with addr := 0x220000#32 }))).bind (fun t => t.rsp) =
      some { okRsp with code := .timeout, info := .timeout .eraseBusy 3000 0x020000#32 } := by
  decide

/-! ### PAGE_PROGRAM and WRITE (V6, V7) -/

/-- V6.3 and V6.2: no data, and the first page of 257 bytes. -/
theorem test_program_pages :
    (next? (execPageProgramReq 0x100#32 0#32 [] State.reset)).bind (fun t => t.rsp) = some okRsp ∧
    plenOf 257#32 0#32 = 256#9 ∧ plenOf 257#32 256#32 = 1#9 := by
  decide

/-- V6.1: no reversal in a PAGE_PROGRAM request; V7.1: reversal in a WRITE; V7.6: none with rev = 0. -/
theorem test_load_words :
    [{ programming .ppLoad with kind := kindPageProgram, wdata := [0x12#8, 0x34#8] }, { programming .ppLoad with j := 1#9 },
        { programming .ppLoad with rev := false, wdata := [0x55#8, 0x55#8] }].map
        (fun s => (next? (step s)).map fun t => (written t, t.seq)) =
      [some ([0x80000012#32], 8#4), some ([0x80000001#32], 9#4),
        some ([0x80000055#32], 8#4)] := by
  decide

/-- V6.4: the commit words wrap. -/
theorem test_commit_words :
    [0#32, 256#32].map (fun p =>
        (next? (step { programming .ppCommit with addr := 0x1FFF00#32, pbase := p })).map fun t => written t) =
      [some [0x3FFF0000#32], some [0x20000000#32]] := by
  decide

/-- V6.5: a program timeout reports the page's offset. -/
theorem test_program_timeout :
    (next? (step (inject [0x00010000#32] [3000] (programming .ppBusy)))).bind (fun t => t.rsp) =
      some { okRsp with code := .timeout, info := .timeout .programBusy 3000 0#32 } := by
  decide

/-- V7.7, U10: a timed-out erase or commit leaves its bytes at free values, on a bridge whose flash is in the state; the other waits
and the oracle use none. -/
theorem test_timeout_unsettles :
    [inject [0x10000#32] [3000] (erasing .erBusy), inject [0x10000#32] [3000] (programming .ppBusy),
        inject [0x10000#32] [3000] (reading .rdBusy false),
        inject [0x10000#32] [3000] { programming .ppBusy with bridge := Bridge.start }].map
        (fun s => (next? (step s)).map fun t => (t.seq, t.bridge.flashDraws)) =
      [some (11#4, 1), some (11#4, 1), some (11#4, 0), some (11#4, 0)] := by
  decide

/-- V6.2: after a full page of 257 bytes comes a page of one; V7.1: after the last page comes the response. -/
theorem test_page_done :
    (next? (step { programming .ppBusy with len := 257#32 })).map (fun t => (t.seq, t.pbase, t.plen, t.j)) =
      some (8#4, 256#32, 1#9, 0#9) ∧
    (next? (step (programming .ppBusy))).bind (fun t => t.rsp) = some okRsp := by
  decide

/-- L1.3, V7.4: the address is checked before the length. -/
theorem test_write_unaligned :
    (next? (execWriteReq 0x100#32 1#32 [0x01#8] true State.reset)).map (fun t => (t.rsp, t.trace)) =
      some (some { okRsp with code := .alignmentError, info := .alignment .writeAddrUnaligned 0x100#32 1#32 }, []) := by
  decide

/-- V7.3: the length check of WRITE, on the latched registers. -/
theorem test_write_too_large :
    State.rsp (State.startWrite { State.reset with kind := kindWrite, len := 65537#32 }) =
      some { okRsp with code := .alignmentError, info := .alignment .writeLenTooLarge 0#32 65537#32 } := by
  decide

/-- V7.2: no data after the erase ends the request; with data the first page follows. -/
theorem test_write_after_erase :
    (next? (step { programming .erBusy with len := 0#32, wdata := [], k := 0#32 })).bind (fun t => t.rsp) = some okRsp ∧
    (next? (step { programming .erBusy with k := 0#32 })).map (fun t => (t.seq, t.plen)) = some (8#4, 2#9) := by
  decide

/-! ### Reset, response and host -/

theorem test_reset_keeps_bridge :
    (State.blockReset { reading .rdBusy true with lastToggle := true }).toggleSeeded = false ∧
    (State.blockReset (reading .rdBusy true)).bridge = (reading .rdBusy true).bridge := by
  decide

theorem test_take_response :
    (next? (step (responding timeoutRsp))).map (fun t => (t.seq, t.rsp, t.host.last, t.host.diagLog)) =
      some (0#4, none, some timeoutRsp, [(false, true)]) := by
  decide

/-- L1.7: one byte too many fails at once; the boundary length is presented with PREWAIT. -/
theorem test_capacity :
    (next? (step (hosting .writeRpd .start [] 950006))).map (fun t => (t.host.phase, t.host.port)) =
      some (.failed .capacity, none) ∧
    (next? (step (hosting .writeRpd .start [] 950005))).map (fun t => (t.host.phase, t.host.port.map decodeReq)) =
      some (.prewaiting, some (.awaitNotBusy 2500#32)) := by
  decide

/-- L1.4: the WRITE of a three-byte file at the application region. -/
theorem test_host_chunk :
    (next? (step (hosting .writeRpd .chunk [0x01#8, 0x35#8, 0xC3#8] 3))).map (fun t => t.host.port.map decodeReq) =
      some (some (.writeReq 0xF0000#32 3#32 [0x01#8, 0x35#8, 0xC3#8] true)) := by
  decide

/-- V8.4: the mismatch record. -/
theorem test_mismatch :
    HostState.mismatches
        { (hosting .writeRpd .verifying [0x00#8, 0x11#8, 0x22#8, 0x33#8] 4).host with image := .factory }
        [0x00#8, 0x11#8, 0xFF#8, 0x33#8] =
      [{ fileOffset := 2, flashAddress := 2, expected := 0x22#8, actual := 0xFF#8 }] := by
  decide

/-- V8.7: an empty file is done at once. -/
theorem test_host_empty_file :
    (next? (step (hosting .writeRpd .chunk [] 0))).map (fun t => (t.host.phase, t.host.out.map HostLine.text)) =
      some (.done, ["rpd_bytes_written=0"]) := by
  decide

/-- R250: a Timeout taken between two requests fails the operation and withdraws the request in the port. -/
theorem test_host_timeout_between_requests :
    [HostPhase.chunk, .readback].map (fun p =>
        (next? (step { responding timeoutRsp with
          host := { (hosting .writeRpd p [1#8] 1).host with session := true, port := some (emptyReq 1#3) } })).map
          fun t => (t.host.session, t.host.port, t.host.phase)) =
      [some (false, none, .failed (.response timeoutRsp)), some (false, none, .failed (.response timeoutRsp))] := by
  decide

/-- R246: a destination file is touched by READ_RPD alone. -/
theorem test_host_destination :
    [HostOp.prewait, .writeRpd, .readRpd].map (fun op =>
        (next? (step { hosting op .start [] 0 with host := { (hosting op .start [] 0).host with dest := [9#8] } })).map
          fun t => t.host.dest) =
      [some [9#8], some [9#8], some []] := by
  decide

/-- R69, R139, U8, U9: what a commit of two bytes promises over erased bytes, over programmed ones, and across a page. -/
theorem test_contract_commit :
    [0x100, 0x101, 0x102].map (commitFlash (fun _ => .erased) 0x100 [1#8, 2#8]) = [.holds 1#8, .holds 2#8, .erased] ∧
    commitFlash (fun _ => .holds 0#8) 0x100 [1#8, 2#8] 0x100 = .unspecified ∧
    [0xFF, 0x100, 0x1FF, 0x200, 0x2FF, 0x300].map (commitFlash (fun _ => .erased) 0x1FF [1#8, 2#8]) =
      [.erased, .unspecified, .unspecified, .unspecified, .unspecified, .erased] := by
  decide

/-- R92, R93, R97, R98, U11, U16: the words after which the contract promises nothing, and two after which it does. -/
theorem test_contract_ends :
    let c : Contract :=
      { erasedByte := 0#8, flash := fun _ => .erased, loads := [], toggle := false, shown := none, op := .none, busy := false,
        last := 0 };
    [0x60000000#32, 0xA0000000#32, 0xC0000000#32, 0xE0000000#32, 0x00001001#32, 0x80000155#32, 0x20000000#32].all (fun v =>
      (c.after (.regWrite 0 v)).isNone) = true ∧
    ([{ c with op := .read 0#21 }, { c with op := .busy 100 none none }, { c with busy := true }].all fun d =>
      (d.after (.regWrite 0 0x80000055#32)).isNone) = true ∧
    (c.after (.regWrite 0 0x00001000#32)).map (fun d => d.op) = some (.read 0x10#21) ∧
    (c.after (.regWrite 0 0x80000055#32)).map (fun d => d.loads) = some [0x55#8] := by
  decide

/-- U10: an erase whose wait timed out leaves its sector at any value, and no other byte; one seen done in time does not. -/
theorem test_contract_timeout :
    let c : Contract :=
      { erasedByte := 0#8, flash := fun _ => .erased, loads := [], toggle := false, shown := none,
        op := .busy 2500 (some 10) (some (0x10000, 0x10000)), busy := true, last := 10 };
    [0xFFFF, 0x10000, 0x1FFFF, 0x20000].map (c.timed 2510).flash = [.erased, .unspecified, .unspecified, .erased] ∧
    (c.timed 2509).flash 0x10000 = .erased ∧ ((c.sampled 0#32).timed 2510).flash 0x10000 = .erased := by
  decide

/-- U16: a load past 256. -/
theorem test_contract_ends_past_256 (c : Contract) (d : Byte) (h : c.loads.length = 256) :
    c.command (.pageProgram 0#21 d) = none := by
  simp [Contract.command, h, Config.pageBytes]

/-! ### Witnesses: for every statement with hypotheses, states and operands that meet them together, clause by clause -/

theorem witness_RomReflectsBits : 0 < 8 ∧ 7 < 8 ∧ (rom 0x01#8).getLsbD 7 = true ∧ (rom 0x80#8).getLsbD 0 = true := by decide

theorem witness_ResetSetsTheStatedRegisters :
    (∃ s : State, s = State.reset) ∧ ∃ s u : State, u.rdata = [1#8] ∧ s = u.blockReset :=
  ⟨⟨_, rfl⟩, _, { reading .rdCmd true with rdata := [1#8] }, rfl, rfl⟩

/-- The reset line in the middle of a request. -/
def resetting : State := { reading .rdBusy true with host := { HostState.start with resetLine := true } }

theorem witness_ResetLineAbandonsTheRequest : resetting.host.resetLine = true ∧ resetting.seq = Seq.rdBusy.code := by decide

theorem witness_StepRunsTheFetchedInstruction :
    (∃ s : State, s.host.resetLine = false ∧ s.bridge.posted = some 0x0F000000#32) ∧
    ∃ (s : State) (r : Request), At .idle s ∧ s.host.port = some r :=
  ⟨⟨(onKind .reference).withFetchWord 32 0x0F000000, rfl, rfl⟩, present (emptyReq 2#3) State.reset, _, ⟨rfl, rfl, rfl⟩, rfl⟩

theorem witness_UnusedSeqCodesFaultAndAreNeverEntered :
    (let s := { State.reset with seq := 12#4 };
      s.host.resetLine = false ∧ s.bridge.posted = none ∧ 12 ≤ s.seq.toNat) ∧
    (let s := { State.reset with seq := 15#4 };
      s.host.resetLine = false ∧ s.bridge.posted = none ∧ 12 ≤ s.seq.toNat) ∧
    (∃ s t : State, s.seq.toNat < 12 ∧ step s = .next t) ∧ (responding okRsp).seq.toNat = 11 :=
  ⟨by decide, by decide, ⟨reading .rdCmd true, _, by decide, rfl⟩, rfl⟩

theorem witness_IdleWithoutARequestDoesNothing :
    ∀ p ∈ [HostPhase.idle, .done, .failed .io],
      let s := { State.reset with host := { HostState.start with phase := p } };
      At .idle s ∧ s.host.port = none ∧
        (s.host.phase = .idle ∨ s.host.phase = .done ∨ ∃ why, s.host.phase = .failed why) := by
  intro p hp
  refine ⟨⟨rfl, rfl, rfl⟩, rfl, ?_⟩
  simp only [List.mem_cons, List.not_mem_nil, or_false] at hp
  rcases hp with rfl | rfl | rfl
  · exact .inl rfl
  · exact .inr (.inl rfl)
  · exact .inr (.inr ⟨_, rfl⟩)

/-- Every kind that answers, and each clause of the command statements. -/
theorem witness_bridgeAnswers :
    [BridgeKind.oracle, .reference, .stuckBusy, .constantToggle].all (fun k => decide ((onKind k).bridge.kind ≠ .noAnswer)) =
      true := by
  decide

theorem witness_ReadCommandPresentsTheByte :
    (onKind .reference).bridge.kind ≠ .noAnswer ∧ (onKind .reference).bridge.kind = .reference ∧
    (onKind .stuckBusy).bridge.kind ≠ .noAnswer ∧ (onKind .stuckBusy).bridge.kind = .stuckBusy ∧
    (onKind .constantToggle).bridge.kind ≠ .noAnswer ∧ (onKind .constantToggle).bridge.kind = .constantToggle ∧
    State.reset.bridge.kind ≠ .noAnswer ∧ State.reset.bridge.kind = .oracle := by
  decide

/-- A page buffer that is about to be committed, at the last bytes of the flash or across its top. -/
def loaded : State :=
  { onFlash [(5, 1#8)] with bridge := { (onFlash [(5, 1#8)]).bridge with pbuf := [1#8, 2#8] } }

theorem witness_CommitCommandStoresThePageBuffer :
    (State.reset.bridge.kind ≠ .noAnswer ∧ State.reset.bridge.kind = .oracle) ∧
    loaded.bridge.kind ≠ .noAnswer ∧ loaded.bridge.kind ≠ .oracle ∧ loaded.bridge.flash.wf = true ∧
    (0x1FFFFE#21).toNat % 256 + loaded.bridge.pbuf.length ≤ 256 ∧ 1 < loaded.bridge.pbuf.length ∧
    (∀ j < loaded.bridge.pbuf.length, 5 ≠ ((0x1FFFFE#21).toNat + j) % Config.flashBytes) ∧
    (∀ j < loaded.bridge.pbuf.length, 5 ≠ ((0x1FFFFF#21).toNat + j) % Config.flashBytes) := by
  decide

theorem witness_EraseCommandErasesOneSector :
    (State.reset.bridge.kind ≠ .noAnswer ∧ State.reset.bridge.kind = .oracle) ∧
    loaded.bridge.kind ≠ .noAnswer ∧ loaded.bridge.kind ≠ .oracle := by
  decide

theorem witness_LoadCommandAppendsToThePageBuffer :
    (State.reset.bridge.kind ≠ .noAnswer ∧ State.reset.bridge.kind = .oracle) ∧
    loaded.bridge.kind ≠ .noAnswer ∧ loaded.bridge.kind ≠ .oracle := by
  decide

theorem witness_UnassignedCommandsAreOnlyDelivered : (onKind .reference).bridge.kind ≠ .noAnswer := by decide

/-- Every sequencer state that makes an access, on a bus that never answers. -/
theorem witness_UnansweredAccessesAreStuck :
    ∀ q ∈ [Seq.awPoll, .rdSeed, .rdCmd, .rdToggle, .rdBusy, .erCmd, .erBusy, .ppLoad, .ppCommit, .ppBusy],
      let s := { onKind .noAnswer with seq := q.code, wdata := [1#8] };
      At q s ∧ s.bridge.kind = .noAnswer ∧ q ≠ .idle ∧ q ≠ .respond ∧ (q = .ppLoad → s.loadIndex < s.wdata.length) := by
  intro q hq
  refine ⟨⟨rfl, rfl, rfl⟩, rfl, ?_, ?_, fun _ => Nat.zero_lt_one⟩
  · rintro rfl
    exact absurd hq (by decide)
  · rintro rfl
    exact absurd hq (by decide)

theorem witness_AwaitNotBusyIsAccepted : State.reset.seq = Seq.idle.code := rfl

theorem witness_ReadBytesIsAccepted :
    State.reset.seq = Seq.idle.code ∧ (0#32).toNat ≤ Config.maxXfer ∧ (65536#32).toNat ≤ Config.maxXfer :=
  ⟨rfl, Nat.zero_le _, le_maxXfer⟩

theorem witness_EraseIsAcceptedOrRaisesAlignment :
    State.reset.seq = Seq.idle.code ∧ (0xF0000#32).toNat % 65536 = 0 ∧ (0x200001#32).toNat % 65536 ≠ 0 := by
  decide

theorem witness_PageProgramIsAccepted :
    State.reset.seq = Seq.idle.code ∧
    ((0#32).toNat = ([] : List Byte).length ∧ ([] : List Byte).length ≤ Config.maxXfer) ∧
    (1#32).toNat = [7#8].length ∧ [7#8].length ≤ Config.maxXfer ∧ 1#32 ≠ 0#32 :=
  ⟨rfl, ⟨rfl, Nat.zero_le _⟩, rfl, Nat.le_trans (by decide) le_maxXfer, by decide⟩

/-- The longest data a WRITE takes. -/
theorem replicate_fits (n : Nat) (h : n ≤ 65536) : (List.replicate n 0#8).length ≤ Config.maxXfer := by
  rw [List.length_replicate]
  exact Nat.le_trans h le_maxXfer

theorem witness_WriteIsAcceptedOrRaisesAlignment :
    State.reset.seq = Seq.idle.code ∧
    (let data := List.replicate 65536 0#8;
      (65536#32).toNat = data.length ∧ data.length ≤ Config.maxXfer ∧ (0x10000#32).toNat % 65536 = 0 ∧
        data.length ≤ 65536) ∧
    (1#32).toNat = [7#8].length ∧ [7#8].length ≤ Config.maxXfer ∧ (0x100#32).toNat % 65536 ≠ 0 := by
  refine ⟨rfl, ⟨?_, replicate_fits _ (Nat.le_refl _), rfl, ?_⟩, rfl, Nat.le_trans (by decide) le_maxXfer, by decide⟩
  · rw [List.length_replicate]
    rfl
  · exact Nat.le_of_eq List.length_replicate

/-- The clause of WRITE with too much data is met by every block whose MAX_XFER (an open parameter) allows 65,537 bytes, as V7.3
takes for granted. -/
theorem witness_WriteTooLarge (h : 65537 ≤ Config.maxXfer) :
    State.reset.seq = Seq.idle.code ∧
    (let data := List.replicate 65537 0#8;
      (65537#32).toNat = data.length ∧ data.length ≤ Config.maxXfer ∧ (0#32).toNat % 65536 = 0 ∧ 65536 < data.length) := by
  refine ⟨rfl, ?_, ?_, rfl, ?_⟩ <;> rw [List.length_replicate]
  · rfl
  · exact h
  · decide

theorem witness_IdleAcceptsExactlyTheWellFormed :
    State.reset.seq = Seq.idle.code ∧ State.reset.bridge.kind ≠ .noAnswer ∧ (Instr.erase 0#32 1#32).wf = true ∧
      Instr.reqReserved5.wf = false := by
  decide

theorem witness_NoRequestIsAcceptedOutsideIdle : (reading .rdCmd true).seq ≠ Seq.idle.code := by decide

theorem witness_AwPollStep :
    (At .awPoll (awaiting 2500#32 0#32 2500) ∧ (awaiting 2500#32 0#32 2500).bridge.kind ≠ .noAnswer ∧
      (awaiting 2500#32 0#32 2500).sample.getLsbD 16 = false) ∧
    (let s := awaiting 2500#32 0x00010000#32 2500;
      At .awPoll s ∧ s.bridge.kind ≠ .noAnswer ∧ s.sample.getLsbD 16 = true ∧ s.tmo.toNat ≤ s.sampled.now - s.t0) ∧
    (let s := awaiting 2500#32 0x00010000#32 2499;
      At .awPoll s ∧ s.bridge.kind ≠ .noAnswer ∧ s.sample.getLsbD 16 = true ∧ s.sampled.now - s.t0 < s.tmo.toNat) := by
  refine ⟨⟨⟨rfl, rfl, rfl⟩, by decide⟩, ⟨⟨rfl, rfl, rfl⟩, by decide⟩, ⟨rfl, rfl, rfl⟩, by decide⟩

theorem witness_RdSeedStep : At .rdSeed (reading .rdSeed true) ∧ (reading .rdSeed true).bridge.kind ≠ .noAnswer :=
  ⟨⟨rfl, rfl, rfl⟩, by decide⟩

theorem witness_SampleAndTimeFrame :
    (reading .rdBusy true).bridge.kind = .reference ∧ (reading .rdBusy true).bridge.script = [] := by
  decide

theorem witness_RdCmdStep : At .rdCmd (reading .rdCmd true) ∧ (reading .rdCmd true).bridge.kind ≠ .noAnswer :=
  ⟨⟨rfl, rfl, rfl⟩, by decide⟩

theorem witness_RdToggleStep :
    (let s := inject [0x00080012#32] [100] (reading .rdToggle true);
      At .rdToggle s ∧ s.bridge.kind ≠ .noAnswer ∧ s.sample.getLsbD 19 ≠ s.lastToggle) ∧
    (let s := inject [0x12#32] [100] (reading .rdToggle true);
      At .rdToggle s ∧ s.bridge.kind ≠ .noAnswer ∧ s.sample.getLsbD 19 = s.lastToggle ∧ 100 ≤ s.sampled.now - s.t0) ∧
    (let s := inject [0x12#32] [99] (reading .rdToggle true);
      At .rdToggle s ∧ s.bridge.kind ≠ .noAnswer ∧ s.sample.getLsbD 19 = s.lastToggle ∧ s.sampled.now - s.t0 < 100) :=
  ⟨⟨⟨rfl, rfl, rfl⟩, by decide⟩, ⟨⟨rfl, rfl, rfl⟩, by decide⟩, ⟨rfl, rfl, rfl⟩, by decide⟩

theorem witness_RdBusyStep :
    (let s := inject [0#32] [100] (reading .rdBusy true);
      At .rdBusy s ∧ s.bridge.kind ≠ .noAnswer ∧ s.sample.getLsbD 16 = false ∧ s.i.toNat + 1 < s.len.toNat) ∧
    (let s := inject [0#32] [100] { reading .rdBusy true with i := 1#32 };
      At .rdBusy s ∧ s.bridge.kind ≠ .noAnswer ∧ s.sample.getLsbD 16 = false ∧ s.i.toNat + 1 = s.len.toNat) ∧
    (let s := inject [0x10000#32] [100] (reading .rdBusy true);
      At .rdBusy s ∧ s.bridge.kind ≠ .noAnswer ∧ s.sample.getLsbD 16 = true ∧ 100 ≤ s.sampled.now - s.t0) ∧
    (let s := inject [0x10000#32] [99] (reading .rdBusy true);
      At .rdBusy s ∧ s.bridge.kind ≠ .noAnswer ∧ s.sample.getLsbD 16 = true ∧ s.sampled.now - s.t0 < 100) :=
  ⟨⟨⟨rfl, rfl, rfl⟩, by decide⟩, ⟨⟨rfl, rfl, rfl⟩, by decide⟩, ⟨⟨rfl, rfl, rfl⟩, by decide⟩, ⟨rfl, rfl, rfl⟩, by decide⟩

theorem witness_ErCmdStep : At .erCmd (erasing .erCmd) ∧ (erasing .erCmd).bridge.kind ≠ .noAnswer :=
  ⟨⟨rfl, rfl, rfl⟩, by decide⟩

theorem witness_ErBusyStep :
    (let s := inject [0#32] [2500] (erasing .erBusy);
      At .erBusy s ∧ s.bridge.kind ≠ .noAnswer ∧ s.sample.getLsbD 16 = false ∧ s.k.toNat + 1 < s.nblk.toNat) ∧
    (let s := inject [0#32] [2500] { programming .erBusy with k := 0#32 };
      At .erBusy s ∧ s.bridge.kind ≠ .noAnswer ∧ s.sample.getLsbD 16 = false ∧ s.k.toNat + 1 = s.nblk.toNat ∧
        s.kind = 4#3 ∧ 0 < s.len.toNat) ∧
    (let s := inject [0#32] [2500] { erasing .erBusy with k := 1#32 };
      At .erBusy s ∧ s.bridge.kind ≠ .noAnswer ∧ s.sample.getLsbD 16 = false ∧ s.k.toNat + 1 = s.nblk.toNat ∧ s.kind ≠ 4#3) ∧
    (let s := inject [0x10000#32] [2500] (erasing .erBusy);
      At .erBusy s ∧ s.bridge.kind ≠ .noAnswer ∧ s.sample.getLsbD 16 = true ∧ 2500 ≤ s.sampled.now - s.t0) ∧
    (let s := inject [0x10000#32] [2499] (erasing .erBusy);
      At .erBusy s ∧ s.bridge.kind ≠ .noAnswer ∧ s.sample.getLsbD 16 = true ∧ s.sampled.now - s.t0 < 2500) :=
  ⟨⟨⟨rfl, rfl, rfl⟩, by decide⟩, ⟨⟨rfl, rfl, rfl⟩, by decide⟩, ⟨⟨rfl, rfl, rfl⟩, by decide⟩, ⟨⟨rfl, rfl, rfl⟩, by decide⟩,
    ⟨rfl, rfl, rfl⟩, by decide⟩

/-- The oracle clause of the two statements about timed-out waits. -/
theorem witness_BusySteps_oracle :
    ∀ q ∈ [Seq.erBusy, .ppBusy], At q (at' q State.reset) ∧ (at' q State.reset).bridge.kind = .oracle :=
  fun _ _ => ⟨⟨rfl, rfl, rfl⟩, rfl⟩

theorem witness_PpLoadStep :
    (let s := programming .ppLoad;
      At .ppLoad s ∧ s.bridge.kind ≠ .noAnswer ∧ s.wdata[s.pbase.toNat + s.j.toNat]? = some 0x01#8 ∧
        (s.kind = 4#3 ∧ s.rev = true) ∧ s.j + 1#9 ≠ s.plen) ∧
    (let s := { programming .ppLoad with kind := kindPageProgram, j := 1#9 };
      At .ppLoad s ∧ s.bridge.kind ≠ .noAnswer ∧ s.wdata[s.pbase.toNat + s.j.toNat]? = some 0x80#8 ∧
        ¬ (s.kind = 4#3 ∧ s.rev = true) ∧ s.j + 1#9 = s.plen) :=
  ⟨⟨⟨rfl, rfl, rfl⟩, by decide⟩, ⟨rfl, rfl, rfl⟩, by decide⟩

theorem witness_PpCommitStep : At .ppCommit (programming .ppCommit) ∧ (programming .ppCommit).bridge.kind ≠ .noAnswer :=
  ⟨⟨rfl, rfl, rfl⟩, by decide⟩

theorem witness_PpBusyStep :
    (let s := inject [0#32] [2500] { programming .ppBusy with len := 257#32 };
      At .ppBusy s ∧ s.bridge.kind ≠ .noAnswer ∧ s.sample.getLsbD 16 = false ∧ s.pbase.toNat + 256 < s.len.toNat) ∧
    (let s := inject [0#32] [2500] { programming .ppBusy with len := 256#32 };
      At .ppBusy s ∧ s.bridge.kind ≠ .noAnswer ∧ s.sample.getLsbD 16 = false ∧ ¬ s.pbase.toNat + 256 < s.len.toNat) ∧
    (let s := inject [0x10000#32] [2500] (programming .ppBusy);
      At .ppBusy s ∧ s.bridge.kind ≠ .noAnswer ∧ s.sample.getLsbD 16 = true ∧ 2500 ≤ s.sampled.now - s.t0) ∧
    (let s := inject [0x10000#32] [2499] (programming .ppBusy);
      At .ppBusy s ∧ s.bridge.kind ≠ .noAnswer ∧ s.sample.getLsbD 16 = true ∧ s.sampled.now - s.t0 < 2500) :=
  ⟨⟨⟨rfl, rfl, rfl⟩, by decide⟩, ⟨⟨rfl, rfl, rfl⟩, by decide⟩, ⟨⟨rfl, rfl, rfl⟩, by decide⟩, ⟨rfl, rfl, rfl⟩, by decide⟩

theorem witness_RespondHoldsUntilTaken :
    (let s := { responding okRsp with host := { HostState.start with takes := false } };
      At .respond s ∧ s.host.takes = false) ∧
    At .respond (responding okRsp) ∧ (responding okRsp).host.takes = true ∧ (responding okRsp).rsp = some okRsp :=
  ⟨⟨⟨rfl, rfl, rfl⟩, rfl⟩, ⟨rfl, rfl, rfl⟩, rfl, rfl⟩

/-- A READ_BYTES request in progress meets the invariant. -/
theorem reading_inv : Inv (reading .rdCmd true) :=
  ⟨⟨.rdCmd, rfl, ⟨rfl, by decide, Nat.le_trans (by decide) le_maxXfer, rfl, rfl⟩, rfl⟩, Nat.zero_le _, Nat.zero_le _, by decide⟩

/-- An ERASE request in progress meets the invariant. -/
theorem erasing_inv : Inv (erasing .erCmd) :=
  ⟨⟨.erCmd, rfl, .inl ⟨rfl, by decide⟩, by decide, by decide, rfl⟩, Nat.zero_le _, Nat.zero_le _, by decide⟩

/-- The program part of a WRITE request in progress meets the invariant. -/
theorem programming_inv : Inv (programming .ppLoad) :=
  ⟨⟨.ppLoad, rfl, ⟨.inr ⟨rfl, by decide, by decide⟩, rfl, by decide, by decide, by decide, rfl⟩, by decide⟩,
    Nat.le_trans (by decide) le_maxXfer, Nat.zero_le _, by decide⟩

theorem witness_EveryStepKeepsTheInvariant :
    (Inv (reading .rdCmd true) ∧ ∃ t, step (reading .rdCmd true) = .next t) ∧
    (Inv (erasing .erCmd) ∧ ∃ t, step (erasing .erCmd) = .next t) ∧
    Inv (programming .ppLoad) ∧ ∃ t, step (programming .ppLoad) = .next t :=
  ⟨⟨reading_inv, _, rfl⟩, ⟨erasing_inv, _, rfl⟩, programming_inv, _, rfl⟩

theorem witness_AStepTouchesTheBusAtMostOnce : ∃ t, step (reading .rdCmd true) = .next t ∧ t.trace.length = 2 := ⟨_, rfl, rfl⟩

theorem witness_OnlyListedWordsAreEmitted :
    Inv (erasing .erCmd) ∧ (erasing .erCmd).bridge.posted = none ∧
      ∃ t, step (erasing .erCmd) = .next t ∧ written t = [0x4F000000#32] :=
  ⟨erasing_inv, rfl, _, rfl, by decide⟩

theorem witness_OnlySeedAndEdgeWriteTheSynchronizer :
    (let s := reading .rdBusy true;
      (∃ t, step s = .next t) ∧ s.host.resetLine = false ∧ s.seq ≠ Seq.rdSeed.code ∧ s.seq ≠ Seq.rdToggle.code ∧
        (s.seq = Seq.idle.code → s.host.port = none → s.host.phase ≠ .start)) ∧
    (let s := hosting .writeRpd .chunk [1#8] 1;
      (∃ t, step s = .next t) ∧ s.host.resetLine = false ∧ s.seq ≠ Seq.rdSeed.code ∧ s.seq ≠ Seq.rdToggle.code ∧
        (s.seq = Seq.idle.code → s.host.port = none → s.host.phase ≠ .start)) :=
  ⟨⟨⟨_, rfl⟩, by decide⟩, ⟨_, rfl⟩, by decide⟩

theorem witness_TimeNeverGoesBack : ∃ t, step (awaiting 2500#32 0x00010000#32 7) = .next t ∧ t.clock.last = 7 := ⟨_, rfl, rfl⟩

theorem witness_NoTimeoutBeforeItsDeadline :
    let s := awaiting 2500#32 0x00010000#32 2500;
    s.rsp = none ∧ ∃ t r, step s = .next t ∧ t.rsp = some r ∧ r.info = .timeout .await 2500 0#32 :=
  ⟨rfl, _, _, rfl, rfl, rfl⟩

/-- The other four waits of the same statement. -/
theorem witness_NoTimeoutBeforeItsDeadline_waits :
    [(inject [0#32] [100] (reading .rdToggle true), Wait.toggle, 100),
        (inject [0x10000#32] [100] (reading .rdBusy true), .readBusy, 100),
        (inject [0x10000#32] [2500] (erasing .erBusy), .eraseBusy, 2500),
        (inject [0x10000#32] [2500] (programming .ppBusy), .programBusy, 2500)].all (fun p =>
      (next? (step p.1)).bind (fun t => t.rsp.map fun r => r.info) ==
        some (.timeout p.2.1 p.2.2 (if p.2.1 = .eraseBusy then 0xF0000#32 else 0#32))) = true := by
  decide

theorem witness_AnOkEndShowsNotBusy :
    (let s := awaiting 0#32 0#32 0;
      s.rsp = none ∧ s.bridge.posted = none ∧ ∃ t r es, step s = .next t ∧ t.rsp = some r ∧ r.code = .ok ∧ Added s t es) ∧
    (let s := present (emptyReq 1#3) State.reset;
      s.rsp = none ∧ s.bridge.posted = none ∧
        ∃ t r, step s = .next t ∧ t.rsp = some r ∧ r.code = .ok ∧ Added s t []) :=
  ⟨⟨rfl, rfl, _, _, [_, _], rfl, rfl, rfl, rfl⟩, rfl, rfl, _, _, rfl, rfl, rfl, rfl⟩

/-- Two samples that differ in the diagnostic bits, the status field and bits 31:20 alone, in every sampling state. -/
theorem witness_IgnoredStatusBitsChangeNoResult :
    ∀ q ∈ [Seq.awPoll, Seq.rdSeed, Seq.rdToggle, Seq.rdBusy, Seq.erBusy, Seq.ppBusy],
      let s := inject [0xFFF6FF12#32] [1] (at' q (onKind .reference));
      At q s ∧ s.bridge.script = 0xFFF6FF12#32 :: [] ∧ s.clock.script = 1 :: [] ∧
        0xFFF6FF12#32 &&& 0x000900FF#32 = 0x00000012#32 &&& 0x000900FF#32 ∧ s.bridge.kind ≠ .noAnswer :=
  fun _ _ => ⟨⟨rfl, rfl, rfl⟩, rfl, rfl, by decide, show BridgeKind.reference ≠ .noAnswer by decide⟩

theorem witness_AwaitEndsWhenTimePassesItsDeadline :
    let s := { inject [] [1000, 1000, 500] (at' .awPoll (onKind .stuckBusy)) with tmo := 2500#32 };
    At .awPoll s ∧ s.bridge.kind ≠ .noAnswer ∧ s.clock.script ≠ [] ∧
      s.t0 + s.tmo.toNat ≤ s.clock.last + s.clock.script.sum :=
  ⟨⟨rfl, rfl, rfl⟩, by decide⟩

/-- The contract of a bridge with the flash of `reading`, nothing outstanding, ERASED_BYTE 0xFF. -/
def promised : Contract :=
  { erasedByte := 0xFF#8, flash := fun x => if x = 0x10 then .holds 0x12#8 else if x = 0x11 then .holds 0x34#8 else .erased,
    loads := [], toggle := false, shown := none, op := .none, busy := false, last := 0 }

/-- No byte of a request with none read so far is untrue. -/
theorem readsTrue_zero (c : Contract) (addr : Word) (rev : Bool) : ReadsTrue c addr rev 0 [] := ⟨rfl, by simp⟩

/-- An edge within the contract: the READ of 0x10 is outstanding, and the sample flips the toggle with its byte. -/
theorem witness_ContractBridgeReadsAreTrue :
    let s := inject [0x00080012#32] [0] (reading .rdToggle false);
    let c := { promised with op := .read 0x10#21 };
    At .rdToggle s ∧ InPhase s c ∧ ∃ t es, step s = .next t ∧ Added s t es ∧ c.Keeps es.reverse :=
  ⟨⟨rfl, rfl, rfl⟩, ⟨rfl, rfl, by decide, readsTrue_zero _ _ _⟩, _, [.time 0, .regRead Config.regAddr 0x00080012#32], rfl, rfl,
    ⟨fun _ b h => Option.some.inj h, fun h => absurd h (by decide), trivial⟩, fun _ _ => ⟨trivial, fun _ _ => trivial⟩⟩

/-- The other three states of the same statement: the seed, the command and the busy wait. -/
theorem witness_ContractBridgeReadsAreTrue_states :
    (let s := inject [0#32] [0] { reading .rdSeed false with toggleSeeded := false };
      At .rdSeed s ∧ InPhase s promised ∧
        ∃ t es, step s = .next t ∧ Added s t es ∧ promised.Keeps es.reverse) ∧
    (let s := inject [] [0] (reading .rdCmd false);
      At .rdCmd s ∧ InPhase s promised ∧ s.i = 0#32 ∧ promised.busy = false ∧
        ∃ t es, step s = .next t ∧ Added s t es ∧ promised.Keeps es.reverse) ∧
    (let s := inject [0#32] [0] { reading .rdBusy false with latched := 0x12#8 };
      At .rdBusy s ∧ InPhase s promised ∧
        ∃ t es, step s = .next t ∧ Added s t es ∧ promised.Keeps es.reverse) :=
  ⟨⟨⟨rfl, rfl, rfl⟩, ⟨rfl, rfl, rfl, by decide⟩, _, [_], rfl, rfl,
      ⟨rfl, fun _ b h => (nomatch h), trivial⟩, fun _ _ => trivial⟩,
    ⟨⟨rfl, rfl, rfl⟩, ⟨rfl, rfl, by decide, fun h => absurd rfl h, readsTrue_zero _ _ _⟩, rfl, rfl, _, [_, _], rfl, rfl,
      trivial, fun _ _ => ⟨trivial, fun _ _ => trivial⟩⟩,
    ⟨rfl, rfl, rfl⟩, ⟨.inl rfl, rfl, by decide, fun b h => Option.some.inj h, readsTrue_zero _ _ _⟩, _, [_, _],
      rfl, rfl, ⟨rfl, fun _ b h => (nomatch h), trivial⟩, fun _ _ => ⟨trivial, fun _ _ => trivial⟩⟩

/-- The byte promised at every address is the one `reading`'s flash holds. -/
theorem promised_read (x : Nat) (v : Byte) (h : promised.byteAt x = some v) :
    Memory.read [(0x10, 0x12#8), (0x11, 0x34#8)] x = v := by
  by_cases h1 : x = 0x10
  · subst h1
    exact Option.some.inj h
  · by_cases h2 : x = 0x11
    · subst h2
      exact Option.some.inj h
    · simpa [promised, Contract.byteAt, h1, h2, Memory.read, Config.erasedByte] using h

/-- A command about to be written, and a READ outstanding at the bridge. -/
theorem witness_ReferenceBridgeKeepsTheContract :
    (let s := reading .rdCmd true;
      s.bridge.kind = .reference ∧ s.bridge.script = [] ∧ s.bridge.posted = none ∧ s.host.resetLine = false ∧ Inv s ∧
        Mirrors s.bridge promised ∧ InStep s promised ∧ ∃ t es, step s = .next t ∧ Added s t es) ∧
    (let s := { reading .rdToggle true with
        bridge := { (reading .rdToggle true).bridge with tog := true, dat := 0x12#8 } };
      let c := { promised with op := .read 0x10#21 };
      s.bridge.kind = .reference ∧ s.bridge.script = [] ∧ s.bridge.posted = none ∧ s.host.resetLine = false ∧ Inv s ∧
        Mirrors s.bridge c ∧ InStep s c ∧ ∃ t es, step s = .next t ∧ Added s t es) :=
  ⟨⟨rfl, rfl, rfl, rfl, reading_inv,
      ⟨by decide, rfl, promised_read, rfl, rfl, rfl, fun _ h => nomatch h⟩, ⟨fun _ => rfl, rfl, rfl⟩, _, [_, _], rfl, rfl⟩,
    rfl, rfl, rfl, rfl,
    ⟨⟨.rdToggle, rfl, ⟨rfl, by decide, Nat.le_trans (by decide) le_maxXfer, rfl, rfl⟩, rfl, Nat.le_refl _⟩, Nat.zero_le _,
      Nat.zero_le _, by decide⟩,
    ⟨by decide, rfl, promised_read, rfl, rfl, rfl, rfl⟩, ⟨fun _ => rfl, ⟨_, rfl⟩, rfl⟩, _, [_, _], rfl, rfl⟩

/-- V4.1 and V4.2: a read of one byte, with and without the seed sample. -/
theorem witness_ReadBytesOnTheReferenceBridge :
    ∀ seeded : Bool,
      let s := present { emptyReq 1#3 with addr := 0x10#32, len := 1#32, reverse := true }
        { onFlash [(0x10, 0x12#8)] with toggleSeeded := seeded };
      At .idle s ∧ s.host.port = some { emptyReq 1#3 with addr := 0x10#32, len := 1#32, reverse := true } ∧
        s.bridge.kind = .reference ∧ s.bridge.script = [] ∧ (s.toggleSeeded = true → s.lastToggle = s.bridge.tog) ∧
        0 < (1#32).toNat ∧ (1#32).toNat ≤ Config.maxXfer :=
  fun _ => ⟨⟨rfl, rfl, rfl⟩, rfl, rfl, rfl, fun _ => rfl, by decide, Nat.le_trans (by decide) le_maxXfer⟩

/-- V5.6 and V5.2: two blocks across the top of the flash, and no block. -/
theorem witness_EraseOnTheReferenceBridge :
    ∀ size : Word,
      let s := present { emptyReq 2#3 with addr := 0x1F0000#32, len := size } (onFlash [(0x1F0000, 0#8)]);
      At .idle s ∧ s.host.port = some { emptyReq 2#3 with addr := 0x1F0000#32, len := size } ∧ s.bridge.kind = .reference ∧
        s.bridge.script = [] ∧ (0x1F0000#32).toNat % 65536 = 0 :=
  fun _ => ⟨⟨rfl, rfl, rfl⟩, rfl, rfl, rfl, by decide⟩

/-- The last page of a request, inside a flash page, and a page with one after it. -/
theorem witness_OnePageOnTheReferenceBridge :
    (let s := programming .ppLoad;
      At .ppLoad s ∧ Programming s ∧ s.j = 0#9 ∧ s.bridge.kind = .reference ∧ s.bridge.script = [] ∧ s.bridge.pbuf = [] ∧
        (s.addr + s.pbase).toNat % 256 + s.plen.toNat ≤ 256 ∧ s.len.toNat ≤ s.pbase.toNat + 256) ∧
    (let s := { programming .ppLoad with len := 257#32, wdata := List.replicate 257 0#8, plen := 256#9 };
      At .ppLoad s ∧ Programming s ∧ s.j = 0#9 ∧ s.bridge.kind = .reference ∧ s.bridge.script = [] ∧ s.bridge.pbuf = [] ∧
        s.pbase.toNat + 256 < s.len.toNat) := by
  refine ⟨⟨⟨rfl, rfl, rfl⟩, ?_, rfl, rfl, rfl, rfl, by decide⟩, ⟨rfl, rfl, rfl⟩, ?_, rfl, rfl, rfl, rfl, by decide⟩
  · exact ⟨.inr ⟨rfl, by decide, by decide⟩, rfl, by decide, by decide, by decide, rfl⟩
  · refine ⟨.inr ⟨rfl, by decide, by decide⟩, ?_, by decide, by decide, by decide, rfl⟩
    exact (List.length_replicate (n := 257) (a := 0#8)).symm

theorem witness_TheHostChecksCapacityThenPrewaits :
    (let s := hosting .writeRpd .start [] 950006;
      At .idle s ∧ s.host.port = none ∧ s.host.phase = .start ∧ s.host.op = .writeRpd ∧ 950005 < s.host.fileLen) ∧
    (let s := hosting .writeRpd .start [] 950005;
      At .idle s ∧ s.host.port = none ∧ s.host.phase = .start ∧ ¬ (s.host.op = .writeRpd ∧ 950005 < s.host.fileLen) ∧
        s.host.session = false) :=
  ⟨⟨⟨rfl, rfl, rfl⟩, by decide⟩, ⟨rfl, rfl, rfl⟩, by decide⟩

theorem witness_TheHostWritesChunkByChunk :
    (let s := hosting .writeRpd .chunk [1#8, 2#8] 2;
      At .idle s ∧ s.host.port = none ∧ s.host.phase = .chunk ∧ s.host.op = .writeRpd ∧ s.host.pos < s.host.fileLen ∧
        ((s.host.file.drop s.host.pos).take (min 65536 (s.host.fileLen - s.host.pos))).length =
          min 65536 (s.host.fileLen - s.host.pos) ∧ s.host.pos % 65536 = 0) ∧
    (let s := hosting .writeRpd .chunk [1#8] 2;
      At .idle s ∧ s.host.port = none ∧ s.host.phase = .chunk ∧ s.host.op = .writeRpd ∧ s.host.pos < s.host.fileLen ∧
        ((s.host.file.drop s.host.pos).take (min 65536 (s.host.fileLen - s.host.pos))).length <
          min 65536 (s.host.fileLen - s.host.pos)) ∧
    (let s := hosting .writeRpd .chunk [] 0;
      At .idle s ∧ s.host.port = none ∧ s.host.phase = .chunk ∧ s.host.op = .writeRpd ∧ s.host.fileLen ≤ s.host.pos) :=
  ⟨⟨⟨rfl, rfl, rfl⟩, by decide⟩, ⟨⟨rfl, rfl, rfl⟩, by decide⟩, ⟨rfl, rfl, rfl⟩, by decide⟩

theorem witness_VerifyRecordsEveryMismatch :
    [0x00#8, 0xFF#8].length = (hosting .writeRpd .verifying [0x00#8, 0x11#8] 2).host.chunk.length := by
  decide

/-- A chunk to read, the end of the bitstream, a chunk that fits and one that does not, and a failed request. -/
theorem witness_TheHostReadsChunkByChunk :
    (let s := hosting .readRpd .chunk [] 0;
      s.host.op = .readRpd ∧ At .idle s ∧ s.host.port = none ∧ s.host.phase = .chunk ∧ s.host.pos < 950005) ∧
    (let s := { hosting .readRpd .chunk [] 0 with host := { (hosting .readRpd .chunk [] 0).host with pos := 950005 } };
      s.host.op = .readRpd ∧ At .idle s ∧ s.host.port = none ∧ s.host.phase = .chunk ∧ 950005 ≤ s.host.pos) ∧
    ∀ room ∈ [none, some 0], ∀ r ∈ [okRsp, { okRsp with data := [1#8] }, timeoutRsp],
      let s := { responding r with host := { HostState.start with op := .readRpd, phase := .reading, destRoom := room } };
      s.host.op = .readRpd ∧ At .respond s ∧ s.host.takes = true ∧ s.rsp = some r ∧ s.host.phase = .reading :=
  ⟨⟨rfl, ⟨rfl, rfl, rfl⟩, by decide⟩, ⟨rfl, ⟨rfl, rfl, rfl⟩, by decide⟩,
    fun _ _ _ _ => ⟨rfl, ⟨rfl, rfl, rfl⟩, rfl, rfl, rfl⟩⟩

/-- The three waiting phases, with and without verify, with and without a mismatch, and the verify read. -/
theorem witness_AnOkResponseMovesTheHostOn :
    (∀ p ∈ [HostPhase.prewaiting, .writing, .verifying], ∀ verify ∈ [false, true], ∀ data ∈ [[1#8], [2#8]],
      let s := { responding { okRsp with data := data } with
        host := { (hosting .writeRpd p [1#8] 1).host with verify := verify } };
      At .respond s ∧ s.host.takes = true ∧ s.rsp = some { okRsp with data := data } ∧ s.host.phase = p ∧
        s.host.verify = verify ∧ (data = [1#8] → s.host.mismatches data = []) ∧
        (data = [2#8] → s.host.mismatches data ≠ [])) ∧
    (let s := hosting .writeRpd .readback [1#8] 1;
      At .idle s ∧ s.host.port = none ∧ s.host.phase = .readback) :=
  ⟨fun _ _ _ _ _ _ => ⟨⟨rfl, rfl, rfl⟩, rfl, rfl, rfl, rfl, fun h => by subst h; rfl, fun h => by subst h; exact nofun⟩,
    ⟨rfl, rfl, rfl⟩, rfl, rfl⟩

/-- Every phase, with a request waiting in the port. -/
theorem witness_ATimeoutEndsTheSession :
    ∀ p ∈ [HostPhase.idle, .start, .prewaiting, .chunk, .writing, .readback, .verifying, .reading, .done],
      let s := { responding timeoutRsp with
        host := { HostState.start with phase := p, session := true, port := some (emptyReq 1#3) } };
      At .respond s ∧ s.host.takes = true ∧ s.rsp = some timeoutRsp ∧ timeoutRsp.code = .timeout ∧ s.host.phase = p :=
  fun _ _ => ⟨⟨rfl, rfl, rfl⟩, rfl, rfl, rfl, rfl⟩

end Sys2Proof.Tests
end

/-! What ends a request with a Timeout (R152, R154, R261): of all a step can do, only the timeout of a poll state. -/

namespace Sys2Proof.Machine

open Sys2Proof.Safety

section

variable {s t : State} {r : Response}

/-! ### The responses of the operations that read no deadline -/

theorem State.startRead_info (hr : s.startRead.rsp = some r) (h : s.rsp = none) : r.info = .empty := by
  unfold State.startRead at hr
  split at hr
  · cases hr; rfl
  · split at hr <;> exact nomatch h.symm.trans hr

theorem State.startErase_info (hr : s.startErase.rsp = some r) (h : s.rsp = none) :
    r.info = .empty ∨ r.info = .alignment .eraseAddrUnaligned s.addr s.len := by
  unfold State.startErase at hr
  split at hr
  · simp only at hr
    split at hr
    · cases hr; exact .inl rfl
    · exact nomatch h.symm.trans hr
  · cases hr; exact .inr rfl

theorem State.startProgram_info (hr : s.startProgram.rsp = some r) (h : s.rsp = none) : r.info = .empty := by
  unfold State.startProgram at hr
  split at hr
  · cases hr; rfl
  · exact nomatch h.symm.trans hr

theorem State.startWrite_info (hr : s.startWrite.rsp = some r) (h : s.rsp = none) :
    ∃ cause, r.info = .alignment cause s.addr s.len := by
  unfold State.startWrite at hr
  split at hr
  · split at hr
    · exact nomatch h.symm.trans hr
    · cases hr; exact ⟨_, rfl⟩
  · cases hr; exact ⟨_, rfl⟩

theorem State.byteDone_info (hr : s.byteDone.rsp = some r) (h : s.rsp = none) : r.info = .empty := by
  unfold State.byteDone at hr
  simp only at hr
  split at hr
  · exact nomatch h.symm.trans hr
  · cases hr; rfl

theorem State.blockDone_info (hr : s.blockDone.rsp = some r) (h : s.rsp = none) : r.info = .empty := by
  unfold State.blockDone at hr
  simp only at hr
  split at hr
  · exact nomatch h.symm.trans hr
  · split at hr
    · exact nomatch h.symm.trans hr
    · cases hr; rfl

theorem State.pageDone_info (hr : s.pageDone.rsp = some r) (h : s.rsp = none) : r.info = .empty := by
  unfold State.pageDone at hr
  split at hr
  · exact nomatch h.symm.trans hr
  · cases hr; rfl

@[simp] theorem State.loadDone_rsp (s : State) : s.loadDone.rsp = s.rsp := by
  unfold State.loadDone
  simp only
  split <;> rfl

theorem State.hostMove_rsp (h : s.rsp = none) : s.hostMove.rsp = none := by
  obtain ⟨_, e⟩ | ⟨-, -, _, e⟩ := s.hostMove_cases
  · rw [e]; exact h
  · rw [e]; rfl

theorem exec_command_rsp {v : Word} (hx : exec (decodeCmd v) s = .next t) : t.rsp = s.rsp := by
  obtain ⟨_, _, -, rfl, -⟩ := exec_command_eq_next hx
  rfl

/-! ### The deadline of a Timeout -/

/-- The deadline of a wait (R154). -/
def Wait.deadline (s : State) : Wait → Nat
  | .await => s.tmo.toNat
  | .toggle => Config.tToggleMs
  | .readBusy => Config.tReadBusyMs
  | .eraseBusy => Config.tEraseMs
  | .programBusy => Config.tProgramMs

theorem pollParams_limit {q : Seq} {w : Wait} {limit : Nat} {pos : Word}
    (h : pollParams s q = some (w, limit, pos)) : limit = w.deadline s := by
  cases q <;> cases h <;> rfl

/-- A step that makes a Timeout response is the timeout of its wait: the code, the elapsed time and its deadline are those of
the step's sample (R152). -/
theorem StepCase.timeout_inv {w : Wait} {e : Nat} {p : Word} (h : StepCase s t) (hs : s.rsp = none)
    (hr : t.rsp = some r) (hi : r.info = .timeout w e p) :
    r.code = .timeout ∧ e = t.clock.last - s.t0 ∧ w.deadline s ≤ e := by
  have unanswered {P : Prop} (ht : t.rsp = none) : P := nomatch ht.symm.trans hr
  have answeredOk {P : Prop} (he : r.info = .empty) : P := nomatch he.symm.trans hi
  cases h with
  | timeout q w' limit pos _ hq _ _ hl =>
    cases hr
    cases hi
    exact ⟨rfl, rfl, pollParams_limit hq ▸ hl⟩
  | reset => exact unanswered rfl
  | command i v _ _ _ hv hx =>
    subst hv
    exact unanswered ((exec_command_rsp hx).trans hs)
  | await | again | seed | readCmd | edge | eraseCmd | commit | held => exact unanswered hs
  | read => exact answeredOk (State.startRead_info hr hs)
  | erase =>
    obtain he | he := State.startErase_info hr hs
    · exact answeredOk he
    · exact nomatch he.symm.trans hi
  | program => exact answeredOk (State.startProgram_info hr hs)
  | write =>
    obtain ⟨cause, he⟩ := State.startWrite_info hr hs
    exact nomatch he.symm.trans hi
  | host => exact unanswered (State.hostMove_rsp hs)
  | awaitDone => cases hr; exact answeredOk rfl
  | byteDone => exact answeredOk (State.byteDone_info hr hs)
  | blockDone => exact answeredOk (State.blockDone_info hr hs)
  | load => exact unanswered ((State.loadDone_rsp _).trans hs)
  | pageDone => exact answeredOk (State.pageDone_info hr hs)
  | taken => exact unanswered rfl

end

/-- Settles O44: a step that answers a Timeout is a poll state's timeout, taken only at or after the wait's deadline. -/
theorem noTimeoutBeforeItsDeadline : Obligations.NoTimeoutBeforeItsDeadline := by
  intro s t r w e p hs hx hr hi
  obtain ⟨hcode, helapsed, hdeadline⟩ := (step_cases hx).timeout_inv hs hr hi
  refine ⟨hcode, helapsed, ?_⟩
  cases w <;> exact hdeadline

end Sys2Proof.Machine

/-! The block's invariant (R21, R22, R23, R263): reset meets it and every step keeps it, one lemma per operation of the block and
per way into a sequencer state. -/

namespace Sys2Proof.Safety

open Sys2Proof.Machine

section

variable {s t : State} {q : Seq}

/-! ### The invariant by its parts -/

/-- The part of the invariant that is the same in every sequencer state: what the block and the bridge store (R21). -/
def Stored (s : State) : Prop :=
  s.wdata.length ≤ Config.maxXfer ∧ s.rdata.length ≤ Config.maxXfer ∧ s.bridge.flash.wf = true

theorem Stored.flash_wf (h : Stored s) : s.bridge.flash.wf = true := h.2.2

theorem Inv.intro (hq : s.seq = q.code) (h : SeqInv s q) (hst : Stored s) : Inv s :=
  ⟨⟨q, hq ▸ Seq.ofCode_code q, h⟩, hst⟩

theorem Inv.stored (h : Inv s) : Stored s := h.2

theorem Inv.seqInv (h : Inv s) (hq : s.seq = q.code) : SeqInv s q := by
  obtain ⟨⟨p, hp, hs⟩, -⟩ := h
  rw [hq, Seq.ofCode_code] at hp
  cases hp
  exact hs

/-- An idle block with nothing stored meets the invariant. -/
theorem Inv.of_cleared (hq : s.seq = Seq.idle.code) (hrsp : s.rsp = none) (hw : s.wdata = []) (hr : s.rdata = [])
    (hf : s.bridge.flash.wf = true) : Inv s :=
  .intro hq hrsp ⟨by simp [hw], by simp [hr], hf⟩

/-! ### States with the same request in progress -/

/-- The registers of the request in progress, and of its response, are the same. -/
structure SameRequest (s t : State) : Prop where
  kind : t.kind = s.kind
  addr : t.addr = s.addr
  len : t.len = s.len
  wdata : t.wdata = s.wdata
  rdata : t.rdata = s.rdata
  i : t.i = s.i
  k : t.k = s.k
  nblk : t.nblk = s.nblk
  pbase : t.pbase = s.pbase
  plen : t.plen = s.plen
  j : t.j = s.j
  toggleSeeded : t.toggleSeeded = s.toggleSeeded
  rsp : t.rsp = s.rsp

theorem Reading.of_same (h : Reading s) (e : SameRequest s t) : Reading t := by
  simpa only [Reading, e.kind, e.i, e.len, e.rdata, e.rsp] using h

theorem Erasing.of_same (h : Erasing s) (e : SameRequest s t) : Erasing t := by
  simpa only [Erasing, e.kind, e.nblk, e.len, e.wdata, e.addr, e.k, e.rsp] using h

theorem Programming.of_same (h : Programming s) (e : SameRequest s t) : Programming t := by
  simpa only [Programming, e.kind, e.addr, e.len, e.wdata, e.pbase, e.plen, e.rsp] using h

theorem Stored.of_same (h : Stored s) (e : SameRequest s t) (hf : t.bridge.flash.wf = true) : Stored t := by
  obtain ⟨hw, hr, -⟩ := h
  exact ⟨e.wdata ▸ hw, e.rdata ▸ hr, hf⟩

theorem WaitStarted.later (h : WaitStarted s) (ht : t.t0 = s.t0) (hc : s.clock.last ≤ t.clock.last) : WaitStarted t := by
  unfold WaitStarted
  rw [ht]
  exact Nat.le_trans h hc

theorem SeqInv.of_same (h : SeqInv s q) (e : SameRequest s t) (ht : t.t0 = s.t0) (hc : s.clock.last ≤ t.clock.last) :
    SeqInv t q := by
  cases q with
  | idle => exact e.rsp.trans h
  | awPoll =>
    obtain ⟨hkind, hwait, hrsp⟩ := h
    exact ⟨e.kind.trans hkind, hwait.later ht hc, e.rsp.trans hrsp⟩
  | rdSeed =>
    obtain ⟨hread, hi, hseed⟩ := h
    exact ⟨hread.of_same e, e.i.trans hi, e.toggleSeeded.trans hseed⟩
  | rdCmd =>
    obtain ⟨hread, hseed⟩ := h
    exact ⟨hread.of_same e, e.toggleSeeded.trans hseed⟩
  | rdToggle | rdBusy =>
    obtain ⟨hread, hseed, hwait⟩ := h
    exact ⟨hread.of_same e, e.toggleSeeded.trans hseed, hwait.later ht hc⟩
  | erCmd => exact Erasing.of_same h e
  | erBusy =>
    obtain ⟨herase, hwait⟩ := h
    exact ⟨herase.of_same e, hwait.later ht hc⟩
  | ppLoad =>
    obtain ⟨hprog, hj⟩ := h
    exact ⟨hprog.of_same e, by rwa [e.j, e.plen]⟩
  | ppCommit =>
    obtain ⟨hprog, hj⟩ := h
    exact ⟨hprog.of_same e, by rwa [e.j, e.plen]⟩
  | ppBusy =>
    obtain ⟨hprog, hj, hwait⟩ := h
    exact ⟨hprog.of_same e, by rwa [e.j, e.plen], hwait.later ht hc⟩
  | respond =>
    obtain ⟨r, hr, hl⟩ := h
    exact ⟨r, e.rsp.trans hr, e.kind ▸ hl⟩

/-- What leaves the sequencer state, the request and the wait alone keeps the invariant, if the flash stays in canonical form. -/
theorem Inv.of_same (h : Inv s) (e : SameRequest s t) (hq : t.seq = s.seq) (ht : t.t0 = s.t0)
    (hc : s.clock.last ≤ t.clock.last) (hf : t.bridge.flash.wf = true) : Inv t := by
  obtain ⟨⟨q, hs, hi⟩, hst⟩ := h
  exact ⟨⟨q, hq ▸ hs, hi.of_same e ht hc⟩, Stored.of_same hst e hf⟩

/-! ### The bus accesses and the time base -/

theorem sameRequest_startWait (s : State) (q : Seq) : SameRequest s (s.startWait q) := by constructor <;> simp

theorem Stored.startWait (h : Stored s) (q : Seq) : Stored (s.startWait q) :=
  h.of_same (sameRequest_startWait s q) h.flash_wf

theorem waitStarted_startWait (s : State) (q : Seq) : WaitStarted (s.startWait q) := Nat.le_refl _

/-- A poll's sample and reading of the time base keep the invariant. -/
theorem Inv.poll (h : Inv s) : Inv s.sampled.timed := by
  have e : SameRequest s s.sampled.timed := by constructor <;> simp
  exact h.of_same e rfl rfl s.sampled.last_le_now h.stored.flash_wf

theorem State.delivered_flash_wf {v : Word} {react : Bridge → Bridge} (hf : s.bridge.flash.wf = true)
    (hreact : ∀ b : Bridge, b.flash.wf = true → (react b).flash.wf = true) :
    (s.delivered v react).bridge.flash.wf = true := by
  unfold State.delivered
  simp only
  split
  · exact hreact _ hf
  · exact hf

/-- A delivered command word keeps the invariant. -/
theorem Inv.delivered (h : Inv s) (v : Word) {react : Bridge → Bridge}
    (hreact : ∀ b : Bridge, b.flash.wf = true → (react b).flash.wf = true) : Inv (s.delivered v react) :=
  h.of_same (by constructor <;> rfl) rfl rfl (Nat.le_refl _) (State.delivered_flash_wf h.stored.flash_wf hreact)

/-! ### Responses (R37, R263) -/

theorem Inv.respond {code : RspCode} {info : Info} {data : List Byte} (h : Stored s)
    (hl : LegalResponse s.kind { code := code, info := info, data := data, diagIe := s.diagIe, diagIw := s.diagIw }) :
    Inv (s.respond code info data) :=
  .intro (q := .respond) rfl ⟨_, rfl, hl⟩ h

/-- An OK response without data is one every request may get. -/
theorem Inv.respondOk_nil (h : Stored s) : Inv (s.respondOk []) := .respond h fun _ => rfl

/-- A poll state's Timeout names a wait its request may have (R154, R263). -/
theorem SeqInv.legalTimeout {w : Wait} {limit e : Nat} {pos : Word} (h : SeqInv s q)
    (hq : pollParams s q = some (w, limit, pos)) (ie iw : Bool) :
    LegalResponse s.kind { code := .timeout, info := .timeout w e pos, data := [], diagIe := ie, diagIw := iw } := by
  cases q <;> cases hq
  case awPoll =>
    obtain ⟨hkind, -⟩ := h
    exact ⟨rfl, hkind⟩
  case rdToggle =>
    obtain ⟨⟨hkind, -⟩, -⟩ := h
    exact ⟨rfl, hkind⟩
  case rdBusy =>
    obtain ⟨⟨hkind, -⟩, -⟩ := h
    exact ⟨rfl, hkind⟩
  case erBusy =>
    obtain ⟨⟨hkind, -⟩, -⟩ := h
    exact ⟨rfl, hkind.imp And.left And.left⟩
  case ppBusy =>
    obtain ⟨⟨hkind, -⟩, -⟩ := h
    exact ⟨rfl, hkind.imp id And.left⟩

/-! ### The start of a page (R200) -/

theorem plenOf_toNat (len off : Word) : (plenOf len off).toNat = min Config.pageBytes (len.toNat - off.toNat) := by
  simp only [plenOf, BitVec.toNat_ofNat, Config.pageBytes]
  omega

/-- A page that starts inside the data, at a multiple of 256, is ready for its loads. -/
theorem Inv.startPage {off : Word}
    (hkind : s.kind = kindPageProgram ∨
      s.kind = kindWrite ∧ sectorAligned s.addr = true ∧ s.len.toNat ≤ Config.maxWriteLen)
    (hlen : s.len.toNat = s.wdata.length) (hoff : off.toNat < s.len.toNat) (hpage : off.toNat % Config.pageBytes = 0)
    (hrsp : s.rsp = none) (h : Stored s) : Inv (s.startPage off) := by
  have hpos : 0 < (plenOf s.len off).toNat := by
    rw [plenOf_toNat]
    simp only [Config.pageBytes]
    omega
  exact .intro (q := .ppLoad) rfl ⟨⟨hkind, hlen, hoff, hpage, plenOf_toNat _ _, hrsp⟩, hpos⟩ h

/-! ### The first steps of the requests (R38) -/

/-- Acceptance of a kind without data cuts what it leaves in `r.wdata` to MAX_XFER (log 9). -/
theorem Stored.latchNoData {o : Operands} (ho : o.wdata = none) (hf : s.bridge.flash.wf = true) :
    Stored (s.latchOperands o) := by
  refine ⟨?_, ?_, hf⟩
  · rw [State.latchOperands_wdata, ho, Option.getD_none]
    exact List.length_take_le _ _
  · rw [State.latchOperands_rdata]
    exact Nat.zero_le _

theorem Stored.latchData {o : Operands} {data : List Byte} (ho : o.wdata = some data)
    (hmax : data.length ≤ Config.maxXfer) (hf : s.bridge.flash.wf = true) : Stored (s.latchOperands o) := by
  refine ⟨?_, ?_, hf⟩
  · rwa [State.latchOperands_wdata, ho, Option.getD_some]
  · rw [State.latchOperands_rdata]
    exact Nat.zero_le _

theorem Inv.startRead (hkind : s.kind = kindReadBytes) (hlen : s.len.toNat ≤ Config.maxXfer) (hdata : s.rdata = [])
    (hrsp : s.rsp = none) (h : Stored s) : Inv s.startRead := by
  unfold State.startRead
  simp only
  split_ifs with hzero hseed
  · exact .respondOk_nil h
  all_goals
    have hpos : (0#32).toNat < s.len.toNat := (BitVec.pos_iff_ne_zero _).2 hzero
    have hreading : Reading { s with i := 0#32 } := ⟨hkind, hpos, hlen, by rw [hdata]; rfl, hrsp⟩
  · exact .intro (q := .rdCmd) rfl ⟨hreading, hseed⟩ h
  · exact .intro (q := .rdSeed) rfl ⟨hreading, rfl, by simpa using hseed⟩ h

theorem Inv.startErase (hkind : s.kind = kindErase) (hrsp : s.rsp = none) (h : Stored s) : Inv s.startErase := by
  unfold State.startErase
  simp only
  split_ifs with halign hzero
  · exact .respondOk_nil h
  · exact .intro (q := .erCmd) rfl ⟨.inl ⟨hkind, rfl⟩, halign, (BitVec.pos_iff_ne_zero _).2 hzero, hrsp⟩ h
  · exact .respond h ⟨rfl, .inl ⟨rfl, hkind⟩⟩

theorem Inv.startProgram (hkind : s.kind = kindPageProgram) (hlen : s.len.toNat = s.wdata.length) (hrsp : s.rsp = none)
    (h : Stored s) : Inv s.startProgram := by
  unfold State.startProgram
  split_ifs with hzero
  · exact .respondOk_nil h
  · exact .startPage (.inl hkind) hlen ((BitVec.pos_iff_ne_zero _).2 hzero) rfl hrsp h

theorem Inv.startWrite (hkind : s.kind = kindWrite) (hlen : s.len.toNat = s.wdata.length) (hrsp : s.rsp = none)
    (h : Stored s) : Inv s.startWrite := by
  unfold State.startWrite
  split_ifs with halign hmax
  · exact .intro (q := .erCmd) rfl ⟨.inr ⟨hkind, rfl, hmax, hlen⟩, halign, Nat.one_pos, hrsp⟩ h
  · exact .respond h ⟨rfl, .inr ⟨nofun, hkind⟩⟩
  · exact .respond h ⟨rfl, .inr ⟨nofun, hkind⟩⟩

/-! ### The successes of the poll states and the load -/

theorem Inv.byteDone (hread : Reading s) (hseed : s.toggleSeeded = true) (h : Stored s) : Inv s.byteDone := by
  obtain ⟨hkind, hi, hlen, hdata, hrsp⟩ := hread
  obtain ⟨hw, -, hf⟩ := h
  have hbytes : (s.rdata ++ [romIf s.rev s.latched]).length = s.i.toNat + 1 := by simp [hdata]
  have hnext : (s.i + 1#32).toNat = s.i.toNat + 1 := by bv_omega
  unfold State.byteDone
  simp only
  split_ifs with hmore
  · refine .intro (q := .rdCmd) rfl ⟨⟨hkind, ?_, hlen, hbytes.trans hnext.symm, hrsp⟩, hseed⟩ ⟨hw, ?_, hf⟩
    · exact hnext ▸ hmore
    · exact hbytes ▸ by omega
  · exact .respond ⟨hw, by rw [hbytes]; omega, hf⟩ fun hne => absurd hkind hne

theorem Inv.blockDone (herase : Erasing s) (h : Stored s) : Inv s.blockDone := by
  obtain ⟨hkind, halign, hk, hrsp⟩ := herase
  unfold State.blockDone
  simp only
  split_ifs with hmore hwrite
  · have hnext : (s.k + 1#32).toNat = s.k.toNat + 1 := by bv_omega
    exact .intro (q := .erCmd) rfl ⟨hkind, halign, hnext ▸ hmore, hrsp⟩ h
  · obtain ⟨hwrite, hpos⟩ := hwrite
    obtain ⟨hkind, -⟩ | ⟨-, -, hmax, hlen⟩ := hkind
    · exact absurd (hwrite.symm.trans hkind) (by decide)
    · exact .startPage (.inr ⟨hwrite, halign, hmax⟩) hlen hpos rfl hrsp h
  · exact .respondOk_nil h

theorem Inv.loadDone (hprog : Programming s) (hj : s.j.toNat < s.plen.toNat) (h : Stored s) : Inv s.loadDone := by
  unfold State.loadDone
  simp only
  split_ifs with hlast
  · exact .intro (q := .ppCommit) rfl ⟨hprog, hlast⟩ h
  · exact .intro (q := .ppLoad) rfl ⟨hprog, show (s.j + 1#9).toNat < s.plen.toNat by bv_omega⟩ h

theorem Inv.pageDone (hprog : Programming s) (h : Stored s) : Inv s.pageDone := by
  obtain ⟨hkind, hlen, hbase, hpage, -, hrsp⟩ := hprog
  unfold State.pageDone
  split_ifs with hmore
  · have hnext : (s.pbase + 256#32).toNat = s.pbase.toNat + 256 := by bv_omega
    refine .startPage hkind hlen (hnext ▸ hmore) ?_ hrsp h
    rw [hnext]
    exact (Nat.add_mod_right _ _).trans hpage
  · exact .respondOk_nil h

/-! ### The step -/

theorem Inv.hostMove (h : Inv s) : Inv s.hostMove := by
  have hf := h.stored.flash_wf
  obtain ⟨_, e⟩ | ⟨-, -, _, e⟩ := s.hostMove_cases
  · rw [e]
    exact h.of_same (by constructor <;> rfl) rfl rfl (Nat.le_refl _) hf
  · rw [e]
    exact .of_cleared rfl rfl rfl rfl hf

theorem Inv.stepCase (h : Inv s) (hc : StepCase s t) : Inv t := by
  have hf := h.stored.flash_wf
  cases hc with
  | reset => exact .of_cleared rfl rfl rfl rfl hf
  | command i v t _ _ hi hx =>
    subst hi
    obtain ⟨v, _, -, rfl, hreact, -⟩ := exec_command_eq_next hx
    have hu : Inv s.unposted := h.of_same (by constructor <;> rfl) rfl rfl (Nat.le_refl _) hf
    exact hu.delivered v hreact
  | await _ hq =>
    have hrsp : s.rsp = none := h.seqInv hq.1
    exact .intro (q := .awPoll) rfl ⟨rfl, waitStarted_startWait _ _, hrsp⟩
      (.startWait (.latchNoData (s := s.unported) rfl hf) _)
  | read _ _ _ hq hcount => exact .startRead rfl hcount rfl (h.seqInv hq.1) (.latchNoData (s := s.unported) rfl hf)
  | erase _ _ hq => exact .startErase rfl (h.seqInv hq.1) (.latchNoData (s := s.unported) rfl hf)
  | program _ _ _ hq hlen hmax =>
    exact .startProgram rfl hlen (h.seqInv hq.1) (.latchData (s := s.unported) rfl hmax hf)
  | write _ _ _ _ hq hlen hmax =>
    exact .startWrite rfl hlen (h.seqInv hq.1) (.latchData (s := s.unported) rfl hmax hf)
  | host => exact h.hostMove
  | again => exact h.poll
  | timeout q w _ _ hq hp =>
    have e : SameRequest s (s.sampled.timed.leaveUnsettled w) := by constructor <;> simp
    refine .respond (h.stored.of_same e (State.unsettledBridge_flash_wf hf)) ?_
    rw [e.kind]
    exact (h.seqInv hq.1).legalTimeout hp _ _
  | awaitDone => exact .respondOk_nil h.poll.stored
  | seed hq =>
    obtain ⟨hread, -, -⟩ := h.seqInv hq.1
    exact .intro (q := .rdCmd) rfl ⟨hread, rfl⟩ h.stored
  | readCmd hq =>
    have hd := h.delivered (cmd 0#3 s.readAddress 0#8) (react := Bridge.takeRead (s.readAddress.setWidth 21)) fun _ => id
    obtain ⟨hread, hseed⟩ := hd.seqInv (q := .rdCmd) hq.1
    exact .intro (q := .rdToggle) rfl
      ⟨hread.of_same (sameRequest_startWait _ _), hseed, waitStarted_startWait _ _⟩ (hd.stored.startWait _)
  | edge hq =>
    have e : SameRequest s (s.sampled.timed.edgeSeen s.sample s.sampled.now) := by constructor <;> simp
    obtain ⟨hread, hseed, -⟩ := h.seqInv hq.1
    exact .intro (q := .rdBusy) rfl ⟨hread.of_same e, e.toggleSeeded.trans hseed, Nat.le_refl _⟩ (h.stored.of_same e hf)
  | byteDone hq =>
    obtain ⟨hread, hseed, -⟩ := h.poll.seqInv (q := .rdBusy) hq.1
    exact .byteDone hread hseed h.poll.stored
  | eraseCmd hq =>
    have hd := h.delivered (cmd 2#3 s.blockAddress 0#8) (react := Bridge.takeErase (s.blockAddress.setWidth 21))
      fun _ => Bridge.takeErase_flash_wf
    have herase : Erasing _ := hd.seqInv (q := .erCmd) hq.1
    exact .intro (q := .erBusy) rfl
      ⟨herase.of_same (sameRequest_startWait _ _), waitStarted_startWait _ _⟩ (hd.stored.startWait _)
  | blockDone hq =>
    obtain ⟨herase, -⟩ := h.poll.seqInv (q := .erBusy) hq.1
    exact .blockDone herase h.poll.stored
  | load w hq =>
    have hd := h.delivered (cmd 4#3 0#32 (romIf s.loadReversed w)) (react := Bridge.takeLoad (romIf s.loadReversed w)) fun _ => id
    obtain ⟨hprog, hj⟩ := hd.seqInv (q := .ppLoad) hq.1
    exact .loadDone hprog hj hd.stored
  | commit hq =>
    have hd := h.delivered (cmd 1#3 s.commitAddress 0#8) (react := Bridge.takeCommit (s.commitAddress.setWidth 21))
      fun _ => Bridge.takeCommit_flash_wf
    obtain ⟨hprog, hj⟩ := hd.seqInv (q := .ppCommit) hq.1
    exact .intro (q := .ppBusy) rfl
      ⟨hprog.of_same (sameRequest_startWait _ _), hj, waitStarted_startWait _ _⟩ (hd.stored.startWait _)
  | pageDone hq =>
    obtain ⟨hprog, -, -⟩ := h.poll.seqInv (q := .ppBusy) hq.1
    exact .pageDone hprog h.poll.stored
  | held => exact h
  | taken => exact .intro (q := .idle) rfl rfl h.stored

end

/-- Settles O9: the block is idle and nothing is stored. -/
theorem resetMeetsTheInvariant : Obligations.ResetMeetsTheInvariant :=
  .of_cleared rfl rfl rfl rfl rfl

/-- Settles O39: of everything a step can do, each case keeps the invariant. -/
theorem everyStepKeepsTheInvariant : Obligations.EveryStepKeepsTheInvariant :=
  fun _ _ h hx => h.stepCase (step_cases hx)

end Sys2Proof.Safety

/-! Where a step fetches, and the acceptance of requests (R38): what IDLE does with a posted word, with a request and with
neither, and each kind's first step with its frame. -/

namespace Sys2Proof.Machine

open Sys2Proof.Safety

section

variable {s t : State}

/-! ### What a step runs -/

theorem step_of_fetch {i : Instr} {u : State} (hr : s.host.resetLine = false) (hf : s.fetch = some (i, u)) :
    step s = exec i u := by
  simp [step, hr, hf]

theorem State.fetch_posted {v : Word} (hp : s.bridge.posted = some v) : s.fetch = some (decodeCmd v, s.unposted) := by
  simp only [State.fetch, hp]
  rfl

theorem State.fetch_port {r : Request} (h : At .idle s) (hport : s.host.port = some r) :
    s.fetch = some (decodeReq r, s.unported) := by
  obtain ⟨hq, -, hp⟩ := h
  simp only [State.fetch, hp, if_pos hq, hport]
  rfl

/-- In IDLE with no request the host moves. -/
theorem step_idle (h : At .idle s) (hport : s.host.port = none) : step s = .next s.hostMove := by
  obtain ⟨hq, hr, hp⟩ := h
  have hf : s.fetch = none := by simp [State.fetch, hp, hport]
  simp [step, hr, hf, stepUnfetched, hq, stepSeq]

/-- In RESPOND the host takes the response that is pending (R39). -/
theorem step_respond_taken {r : Response} (h : At .respond s) (ht : s.host.takes = true) (hr : s.rsp = some r) :
    step s = .next { s with rsp := none, seq := Seq.idle.code, host := s.host.receive r } := by
  rw [step_of_at h nofun]
  simp [stepSeq, stepRespond, ht, hr]

theorem step_respond_held (h : At .respond s) (ht : s.host.takes = false) : step s = .next s := by
  rw [step_of_at h nofun]
  simp [stepSeq, stepRespond, ht]

end

/-- Settles O10: a posted word is fetched in every state, and the request in the port in IDLE. -/
theorem stepRunsTheFetchedInstruction : Obligations.StepRunsTheFetchedInstruction := by
  refine ⟨fun s v hr hp => step_of_fetch hr (State.fetch_posted hp), fun s r h hport => ?_⟩
  obtain ⟨-, hr, -⟩ := id h
  exact step_of_fetch hr (State.fetch_port h hport)

/-- Settles O12: the host has no move in these phases. -/
theorem idleWithoutARequestDoesNothing : Obligations.IdleWithoutARequestDoesNothing := by
  intro s h hport hphase
  rw [step_idle h hport, State.hostMove]
  obtain hp | hp | ⟨why, hp⟩ := hphase <;> rw [hp]

section

variable {s : State}

/-! ### The first steps of the requests -/

theorem sectorAligned_iff {a : Word} : sectorAligned a = true ↔ a.toNat % 65536 = 0 := beq_iff_eq

theorem State.startRead_eq (s : State) :
    s.startRead = { s with
      i := 0#32
      seq := if s.len = 0#32 then Seq.respond.code else if s.toggleSeeded then Seq.rdCmd.code else Seq.rdSeed.code
      rsp := if s.len = 0#32 then some { code := .ok, info := .empty, data := [], diagIe := s.diagIe, diagIw := s.diagIw }
        else s.rsp } := by
  unfold State.startRead
  simp only
  split_ifs <;> rfl

theorem State.startProgram_of_empty (h : s.len = 0#32) : s.startProgram = s.respond .ok .empty [] := if_pos h

theorem State.startProgram_of_data (h : s.len ≠ 0#32) : s.startProgram = s.startPage 0#32 := if_neg h

theorem State.startWrite_of_unaligned (ha : s.addr.toNat % 65536 ≠ 0) :
    s.startWrite = s.respond .alignmentError (.alignment .writeAddrUnaligned s.addr s.len) [] :=
  if_neg (mt sectorAligned_iff.1 ha)

theorem State.startWrite_of_tooLarge (ha : s.addr.toNat % 65536 = 0) (hl : 65536 < s.len.toNat) :
    s.startWrite = s.respond .alignmentError (.alignment .writeLenTooLarge s.addr s.len) [] :=
  (if_pos (sectorAligned_iff.2 ha)).trans (if_neg (Nat.not_le.2 hl))

theorem State.startWrite_of_fits (ha : s.addr.toNat % 65536 = 0) (hl : s.len.toNat ≤ 65536) :
    s.startWrite = { s with nblk := 1#32, k := 0#32, seq := Seq.erCmd.code } :=
  (if_pos (sectorAligned_iff.2 ha)).trans (if_pos hl)

/-- In IDLE a request that nothing refuses is accepted. -/
theorem State.accept_idle {o : Operands} {refuse : Option Refusal} (first : State → State) (hs : s.seq = Seq.idle.code)
    (hr : refuse = none) : s.accept o refuse first = .next (first (s.latchOperands o)) :=
  State.accept_eq_next.2 ⟨hs, hr, rfl⟩

end

/-- Settles O19: the wait starts at the reading of the time base that acceptance makes. -/
theorem awaitNotBusyIsAccepted : Obligations.AwaitNotBusyIsAccepted := fun _ _ hs =>
  ⟨_, State.accept_idle _ hs rfl, State.last_le_now _, rfl⟩

/-- Settles O20: a count within MAX_XFER is accepted, and READ_BYTES' first step follows. -/
theorem readBytesIsAccepted : Obligations.ReadBytesIsAccepted := by
  intro addr count rev s hs hmax
  refine ⟨_, State.accept_idle _ hs (refuseCount_eq_none.2 hmax), ?_⟩
  rw [State.startRead_eq]
  rfl

/-- Settles O22: accepted data either start their first page or, when there are none, end the request. -/
theorem pageProgramIsAccepted : Obligations.PageProgramIsAccepted := by
  intro addr len data s hs hlen hmax
  refine ⟨_, State.accept_idle _ hs (refuseData_eq_none.2 ⟨hlen, hmax⟩), fun hempty => ?_, fun hdata => ?_⟩
  · rw [State.startProgram_of_empty hempty]
    rfl
  · rw [State.startProgram_of_data hdata]
    rfl

/-- Settles O23: the three outcomes of WRITE's first step, the address check before the length check (R264). -/
theorem writeIsAcceptedOrRaisesAlignment : Obligations.WriteIsAcceptedOrRaisesAlignment := by
  intro addr len data rev s hs hlen hmax
  have hfits : refuseData len data = none := refuseData_eq_none.2 ⟨hlen, hmax⟩
  refine ⟨_, State.accept_idle _ hs hfits, ?_, fun ha => ?_, fun ha hl => ?_, fun ha hl => ?_⟩
  · by_cases ha : addr.toNat % 65536 = 0
    · by_cases hl : len.toNat ≤ 65536
      · rw [State.startWrite_of_fits ha hl]
        rfl
      · rw [State.startWrite_of_tooLarge ha (Nat.not_le.1 hl)]
        rfl
    · rw [State.startWrite_of_unaligned ha]
      rfl
  · rw [State.startWrite_of_unaligned ha]
    exact ⟨rfl, rfl, rfl, rfl⟩
  · rw [State.startWrite_of_tooLarge ha (hlen ▸ hl)]
    exact ⟨rfl, rfl, rfl, rfl⟩
  · rw [State.startWrite_of_fits ha (hlen ▸ hl)]
    exact ⟨rfl, rfl, rfl, rfl⟩

/-! ### What is accepted -/

section

variable {s : State}

theorem busAnswers_iff : s.busAnswers = true ↔ s.bridge.kind ≠ .noAnswer := by simp [State.busAnswers]

/-- In IDLE a request is accepted exactly when nothing refuses it. -/
theorem State.accept_answers_iff {o : Operands} {refuse : Option Refusal} {first : State → State}
    (hs : s.seq = Seq.idle.code) : (∃ t, s.accept o refuse first = .next t) ↔ refuse = none :=
  ⟨fun ⟨_, h⟩ => (State.accept_eq_next.1 h).2.1, fun h => ⟨_, State.accept_idle first hs h⟩⟩

end

/-- Settles O25: a command word is delivered, a defined kind is accepted exactly when R38 refuses nothing, and a reserved kind is
refused. -/
theorem idleAcceptsExactlyTheWellFormed : Obligations.IdleAcceptsExactlyTheWellFormed := by
  intro i s hs hb
  cases i with
  | read | write | sectorErase | readStatus | pageProgram | reserved5 | reserved6 | reserved7 =>
    exact iff_of_true ⟨_, if_pos (busAnswers_iff.2 hb)⟩ rfl
  | awaitNotBusy | erase => exact (State.accept_answers_iff hs).trans (iff_of_true rfl rfl)
  | readBytes => exact (State.accept_answers_iff hs).trans (refuseCount_eq_none.trans fitsXfer_iff.symm)
  | pageProgramReq | writeReq =>
    refine (State.accept_answers_iff hs).trans (refuseData_eq_none.trans ?_)
    simp [Instr.wf, Instr.wfWithin, fitsXfer_iff]
  | reqReserved5 | reqReserved6 | reqReserved7 => exact iff_of_false (fun ⟨_, hx⟩ => nomatch hx) Bool.false_ne_true

/-- Settles O26: every defined kind goes through acceptance, which asks for IDLE, and a reserved kind is refused. -/
theorem noRequestIsAcceptedOutsideIdle : Obligations.NoRequestIsAcceptedOutsideIdle := by
  intro r s t hs hx
  unfold decodeReq at hx
  split at hx
  case h_6 | h_7 | h_8 => exact nomatch hx
  -- each of the defined kinds is an `accept`, whose first test is for IDLE
  all_goals exact nomatch (if_neg hs).symm.trans hx

end Sys2Proof.Machine

/-! What a step leaves alone: the codes of `seq` (R23), the record of bus events (R34) and the synchronizer (R25), each by one
look at everything a step can do. -/

namespace Sys2Proof.Machine

open Sys2Proof.Safety

section

variable {s t : State}

/-! ### Moves of the sequencer that make no access -/

/-- A move of the sequencer without an access or a reading of the time base: it enters one of the twelve states, and changes
neither the environment nor the synchronizer. -/
structure SeqMove (s t : State) : Prop where
  seq : ∃ q : Seq, t.seq = q.code
  synchronizer : t.lastToggle = s.lastToggle ∧ t.toggleSeeded = s.toggleSeeded
  bridge : t.bridge = s.bridge
  clock : t.clock = s.clock
  trace : t.trace = s.trace
  host : t.host = s.host

theorem State.respond_move (code : RspCode) (info : Info) (data : List Byte) (s : State) :
    SeqMove s (s.respond code info data) :=
  ⟨⟨.respond, rfl⟩, ⟨rfl, rfl⟩, rfl, rfl, rfl, rfl⟩

theorem State.startPage_move (off : Word) (s : State) : SeqMove s (s.startPage off) :=
  ⟨⟨.ppLoad, rfl⟩, ⟨rfl, rfl⟩, rfl, rfl, rfl, rfl⟩

theorem State.startRead_move (s : State) : SeqMove s s.startRead := by
  unfold State.startRead
  simp only
  split_ifs
  · exact ⟨⟨.respond, rfl⟩, ⟨rfl, rfl⟩, rfl, rfl, rfl, rfl⟩
  · exact ⟨⟨.rdCmd, rfl⟩, ⟨rfl, rfl⟩, rfl, rfl, rfl, rfl⟩
  · exact ⟨⟨.rdSeed, rfl⟩, ⟨rfl, rfl⟩, rfl, rfl, rfl, rfl⟩

theorem State.startErase_move (s : State) : SeqMove s s.startErase := by
  unfold State.startErase
  simp only
  split_ifs
  · exact ⟨⟨.respond, rfl⟩, ⟨rfl, rfl⟩, rfl, rfl, rfl, rfl⟩
  · exact ⟨⟨.erCmd, rfl⟩, ⟨rfl, rfl⟩, rfl, rfl, rfl, rfl⟩
  · exact State.respond_move _ _ _ _

theorem State.startProgram_move (s : State) : SeqMove s s.startProgram := by
  unfold State.startProgram
  split_ifs
  · exact State.respond_move _ _ _ _
  · exact State.startPage_move _ _

theorem State.startWrite_move (s : State) : SeqMove s s.startWrite := by
  unfold State.startWrite
  split_ifs
  · exact ⟨⟨.erCmd, rfl⟩, ⟨rfl, rfl⟩, rfl, rfl, rfl, rfl⟩
  · exact State.respond_move _ _ _ _
  · exact State.respond_move _ _ _ _

theorem State.byteDone_move (s : State) : SeqMove s s.byteDone := by
  unfold State.byteDone
  simp only
  split_ifs
  · exact ⟨⟨.rdCmd, rfl⟩, ⟨rfl, rfl⟩, rfl, rfl, rfl, rfl⟩
  · exact ⟨⟨.respond, rfl⟩, ⟨rfl, rfl⟩, rfl, rfl, rfl, rfl⟩

theorem State.blockDone_move (s : State) : SeqMove s s.blockDone := by
  unfold State.blockDone
  simp only
  split_ifs
  · exact ⟨⟨.erCmd, rfl⟩, ⟨rfl, rfl⟩, rfl, rfl, rfl, rfl⟩
  · exact ⟨⟨.ppLoad, rfl⟩, ⟨rfl, rfl⟩, rfl, rfl, rfl, rfl⟩
  · exact ⟨⟨.respond, rfl⟩, ⟨rfl, rfl⟩, rfl, rfl, rfl, rfl⟩

theorem State.loadDone_move (s : State) : SeqMove s s.loadDone := by
  unfold State.loadDone
  simp only
  split_ifs
  · exact ⟨⟨.ppCommit, rfl⟩, ⟨rfl, rfl⟩, rfl, rfl, rfl, rfl⟩
  · exact ⟨⟨.ppLoad, rfl⟩, ⟨rfl, rfl⟩, rfl, rfl, rfl, rfl⟩

theorem State.pageDone_move (s : State) : SeqMove s s.pageDone := by
  unfold State.pageDone
  split_ifs
  · exact State.startPage_move _ _
  · exact ⟨⟨.respond, rfl⟩, ⟨rfl, rfl⟩, rfl, rfl, rfl, rfl⟩

/-! ### The codes of `seq` -/

theorem Seq.code_lt (q : Seq) : q.code.toNat < 12 := by cases q <;> decide

theorem Seq.ofCode_eq_none {c : BitVec 4} (h : 12 ≤ c.toNat) : Seq.ofCode c = none := by
  revert c
  decide

theorem State.hostMove_seq (h : s.seq = Seq.idle.code) : s.hostMove.seq = Seq.idle.code := by
  obtain ⟨_, e⟩ | ⟨-, -, _, e⟩ := s.hostMove_cases
  · rw [e]; exact h
  · rw [e]; rfl

theorem SeqMove.seq_lt (h : SeqMove s t) : t.seq.toNat < 12 := by
  obtain ⟨q, hq⟩ := h.seq
  exact hq ▸ q.code_lt

/-- From one of the twelve states a step goes to one of the twelve. -/
theorem StepCase.seq_lt (h : StepCase s t) (hs : s.seq.toNat < 12) : t.seq.toNat < 12 := by
  cases h with
  | command i v t _ _ hi hx =>
    subst hi
    obtain ⟨_, _, -, rfl, -⟩ := exec_command_eq_next hx
    exact hs
  | again | held => exact hs
  | reset | taken => exact Seq.idle.code_lt
  | host hq => exact State.hostMove_seq hq.1 ▸ Seq.idle.code_lt
  | await => exact Seq.awPoll.code_lt
  | seed => exact Seq.rdCmd.code_lt
  | readCmd => exact Seq.rdToggle.code_lt
  | edge => exact Seq.rdBusy.code_lt
  | eraseCmd => exact Seq.erBusy.code_lt
  | commit => exact Seq.ppBusy.code_lt
  | timeout | awaitDone => exact Seq.respond.code_lt
  | read => exact (State.startRead_move _).seq_lt
  | erase => exact (State.startErase_move _).seq_lt
  | program => exact (State.startProgram_move _).seq_lt
  | write => exact (State.startWrite_move _).seq_lt
  | byteDone => exact (State.byteDone_move _).seq_lt
  | blockDone => exact (State.blockDone_move _).seq_lt
  | load => exact (State.loadDone_move _).seq_lt
  | pageDone => exact (State.pageDone_move _).seq_lt

/-! ### The record of bus events (R34) -/

/-- An access is at the bridge register (R63). -/
def OnRegister : BusEvent → Prop
  | .regWrite a _ => a = Config.regAddr
  | .regRead a _ => a = Config.regAddr
  | .time _ => True

/-- What a step can add to the record: at most one access, and at most one reading of the time base, after it. -/
inductive Touches (s t : State) : Prop where
  | nothing (h : t.trace = s.trace)
  | time (x : Nat) (h : t.trace = .time x :: s.trace)
  | access (e : BusEvent) (he : e.isAccess = true) (ha : OnRegister e) (h : t.trace = e :: s.trace)
  | accessThenTime (e : BusEvent) (x : Nat) (he : e.isAccess = true) (ha : OnRegister e) (h : t.trace = .time x :: e :: s.trace)

theorem Touches.write {v : Word} (h : t.trace = .regWrite Config.regAddr v :: s.trace) : Touches s t :=
  .access (.regWrite _ v) rfl rfl h

theorem Touches.writeThenTime {v : Word} {x : Nat} (h : t.trace = .time x :: .regWrite Config.regAddr v :: s.trace) :
    Touches s t :=
  .accessThenTime (.regWrite _ v) x rfl rfl h

theorem Touches.poll (h : t.trace = s.sampled.timed.trace) : Touches s t :=
  .accessThenTime (.regRead _ s.sample) s.sampled.now rfl rfl h

theorem State.hostMove_trace (s : State) : s.hostMove.trace = s.trace := by
  obtain ⟨_, e⟩ | ⟨-, -, _, e⟩ := s.hostMove_cases <;> simp [e]

theorem StepCase.touches (h : StepCase s t) : Touches s t := by
  cases h with
  | command i v t _ _ hi hx =>
    subst hi
    obtain ⟨_, _, -, rfl, -⟩ := exec_command_eq_next hx
    exact .write rfl
  | reset | held | taken => exact .nothing rfl
  | host => exact .nothing s.hostMove_trace
  | read => exact .nothing (State.startRead_move _).trace
  | erase => exact .nothing (State.startErase_move _).trace
  | program => exact .nothing (State.startProgram_move _).trace
  | write => exact .nothing (State.startWrite_move _).trace
  | await => exact .time _ rfl
  | seed => exact .access (.regRead _ s.sample) rfl rfl rfl
  | load => exact .write (State.loadDone_move _).trace
  | readCmd | eraseCmd | commit => exact .writeThenTime rfl
  | again | timeout | awaitDone | edge => exact .poll rfl
  | byteDone => exact .poll (State.byteDone_move _).trace
  | blockDone => exact .poll (State.blockDone_move _).trace
  | pageDone => exact .poll (State.pageDone_move _).trace

/-- The accesses among events on the register are at its address. -/
theorem addr_of_onRegister {es : List BusEvent} (h : ∀ e ∈ es, OnRegister e) :
    (∀ a v, BusEvent.regWrite a v ∈ es → a = Config.asmiBase + 0x8) ∧
      ∀ a v, BusEvent.regRead a v ∈ es → a = Config.asmiBase + 0x8 :=
  ⟨fun _ _ hm => h _ hm, fun _ _ hm => h _ hm⟩

/-! ### The synchronizer (R25) -/

theorem StepCase.keeps_synchronizer (h : StepCase s t) (hr : s.host.resetLine = false) (hseed : s.seq ≠ Seq.rdSeed.code)
    (hedge : s.seq ≠ Seq.rdToggle.code) (hstart : s.seq = Seq.idle.code → s.host.port = none → s.host.phase ≠ .start) :
    t.lastToggle = s.lastToggle ∧ t.toggleSeeded = s.toggleSeeded := by
  cases h with
  | reset h => exact absurd h (Bool.eq_false_iff.1 hr)
  | seed h => exact absurd h.1 hseed
  | edge h => exact absurd h.1 hedge
  | host h hport =>
    obtain ⟨_, e⟩ | ⟨hphase, -⟩ := s.hostMove_cases
    · rw [e]
      exact ⟨rfl, rfl⟩
    · exact absurd hphase (hstart h.1 hport)
  | command i v t _ _ hi hx =>
    subst hi
    obtain ⟨_, _, -, rfl, -⟩ := exec_command_eq_next hx
    exact ⟨rfl, rfl⟩
  | again | timeout | awaitDone => exact ⟨by simp, by simp⟩
  | await | readCmd | eraseCmd | commit | held | taken => exact ⟨rfl, rfl⟩
  | read => exact (State.startRead_move _).synchronizer
  | erase => exact (State.startErase_move _).synchronizer
  | program => exact (State.startProgram_move _).synchronizer
  | write => exact (State.startWrite_move _).synchronizer
  | byteDone => exact (State.byteDone_move _).synchronizer
  | blockDone => exact (State.blockDone_move _).synchronizer
  | load => exact (State.loadDone_move _).synchronizer
  | pageDone => exact (State.pageDone_move _).synchronizer

end

/-- Settles O11: an unused code is no state of the sequencer, and every case of a step ends in one of the twelve. -/
theorem unusedSeqCodesFaultAndAreNeverEntered : Obligations.UnusedSeqCodesFaultAndAreNeverEntered := by
  refine ⟨fun s hr hp hs => ?_, fun s t hs hx => (step_cases hx).seq_lt hs⟩
  have hidle : s.seq ≠ Seq.idle.code := fun h => absurd (h ▸ hs) (by decide)
  have hf : s.fetch = none := by simp only [State.fetch, hp, if_neg hidle]
  simp [step, hr, hf, stepUnfetched, Seq.ofCode_eq_none hs]

/-- Settles O40: the events of a step are those of its `Touches`. -/
theorem aStepTouchesTheBusAtMostOnce : Obligations.AStepTouchesTheBusAtMostOnce := by
  intro s t hx
  cases (step_cases hx).touches with
  | nothing h => exact ⟨[], h, .inl rfl, addr_of_onRegister (by simp)⟩
  | time x h => exact ⟨[.time x], h, .inr (.inl ⟨_, rfl⟩), addr_of_onRegister (by simp [OnRegister])⟩
  | access e he ha h => exact ⟨[e], h, .inr (.inl ⟨_, rfl⟩), addr_of_onRegister (by simpa using ha)⟩
  | accessThenTime e x he ha h =>
    exact ⟨[.time x, e], h, .inr (.inr ⟨_, _, rfl, he⟩), addr_of_onRegister (by simpa [OnRegister] using ha)⟩

/-- Settles O42: the reset, the seed and the edge are the only cases that write it, and the hypotheses shut them out. -/
theorem onlySeedAndEdgeWriteTheSynchronizer : Obligations.OnlySeedAndEdgeWriteTheSynchronizer :=
  fun _ _ hx => (step_cases hx).keeps_synchronizer

end Sys2Proof.Machine

/-! Samples and time readings (R26, R96, R150): their frame, and that the bits of a status word no rule reads change no result. -/

namespace Sys2Proof.Machine

open Sys2Proof.Safety

/-- Settles O29: the frames hold by definition, and the reference bridge's word is that of R141 with busy clear. -/
theorem sampleAndTimeFrame : Obligations.SampleAndTimeFrame := by
  refine fun s => ⟨rfl, rfl, s.last_le_now, fun hk hscript => ?_⟩
  have hs : s.sample = statusWord s.bridge.tog false s.bridge.dat := by
    simp only [State.sample, hscript, Bridge.modelled, Bridge.status, hk, if_true]
    rfl
  rw [hs]
  cases s.bridge.tog <;> simp [statusWord]

section

variable {s t u : State} {v w : Word}

/-! ### The bits of a status word that rules read (R96) -/

/-- Bits 19, 16 and 7:0 decide the fields that rules read. -/
theorem fields_of_masked (h : v &&& 0x000900FF#32 = w &&& 0x000900FF#32) :
    stToggle v = stToggle w ∧ stBusy v = stBusy w ∧ stData v = stData w := by
  have bit (n : Nat) (hn : (0x000900FF#32).getLsbD n = true) : v.getLsbD n = w.getLsbD n := by
    simpa [hn] using congrArg (BitVec.getLsbD · n) h
  refine ⟨bit 19 rfl, bit 16 rfl, BitVec.eq_of_getLsbD_eq fun i hi => ?_⟩
  have hlow : ∀ i < 8, (0x000900FF#32).getLsbD i = true := by decide
  simp [stData, hi, bit i (hlow i hi)]

/-! ### States that differ in the flags alone -/

/-- The states agree in everything but the flags, the record of events, and the flags inside the response (R26). -/
def AlikeButFlags (t u : State) : Prop :=
  { t with diagIe := u.diagIe, diagIw := u.diagIw, trace := u.trace, rsp := u.rsp } = u ∧
    t.rsp.map (fun r => (r.code, r.info, r.data)) = u.rsp.map (fun r => (r.code, r.info, r.data))

theorem AlikeButFlags.leaveUnsettled (h : AlikeButFlags t u) (wait : Wait) :
    AlikeButFlags (t.leaveUnsettled wait) (u.leaveUnsettled wait) := by
  obtain ⟨e, hr⟩ := h
  rw [← e]
  exact ⟨rfl, hr⟩

theorem AlikeButFlags.respond (h : AlikeButFlags t u) (code : RspCode) (info : Info) (data : List Byte) :
    AlikeButFlags (t.respond code info data) (u.respond code info data) := by
  obtain ⟨e, -⟩ := h
  rw [← e]
  exact ⟨rfl, rfl⟩

theorem AlikeButFlags.edgeSeen (h : AlikeButFlags t u) (x : Nat) (ht : stToggle v = stToggle w) (hd : stData v = stData w) :
    AlikeButFlags (t.edgeSeen v x) (u.edgeSeen w x) := by
  obtain ⟨e, hr⟩ := h
  rw [← e]
  exact ⟨by simp [State.edgeSeen, ht, hd], hr⟩

theorem AlikeButFlags.byteDone (h : AlikeButFlags t u) : AlikeButFlags t.byteDone u.byteDone := by
  obtain ⟨e, hr⟩ := h
  rw [← e]
  unfold State.byteDone
  simp only
  split_ifs
  · exact ⟨rfl, hr⟩
  · exact ⟨rfl, rfl⟩

theorem AlikeButFlags.blockDone (h : AlikeButFlags t u) : AlikeButFlags t.blockDone u.blockDone := by
  obtain ⟨e, hr⟩ := h
  rw [← e]
  unfold State.blockDone
  simp only
  split_ifs
  · exact ⟨rfl, hr⟩
  · exact ⟨rfl, hr⟩
  · exact ⟨rfl, rfl⟩

theorem AlikeButFlags.pageDone (h : AlikeButFlags t u) : AlikeButFlags t.pageDone u.pageDone := by
  obtain ⟨e, hr⟩ := h
  rw [← e]
  unfold State.pageDone
  simp only
  split_ifs
  · exact ⟨rfl, hr⟩
  · exact ⟨rfl, rfl⟩

/-! ### Two steps on samples that differ in ignored bits -/

/-- The state with other status words to be read next. -/
def State.withScript (l : List Word) (s : State) : State := { s with bridge := { s.bridge with script := l } }

@[simp] theorem State.withScript_t0 (l : List Word) (s : State) : (s.withScript l).t0 = s.t0 := rfl
@[simp] theorem State.withScript_clock (l : List Word) (s : State) : (s.withScript l).clock = s.clock := rfl

theorem State.withScript_at {q : Seq} (h : At q s) (l : List Word) : At q (s.withScript l) := h

/-- A reading of the time base that is scripted does not ask what was sampled. -/
theorem State.sampled_now_of_script {d : Nat} {ds : List Nat} (h : s.clock.script = d :: ds) :
    s.sampled.now = s.clock.last + d := by
  simp [State.now, h]

section

variable {rest : List Word} {d : Nat} {ds : List Nat} (hv : s.bridge.script = v :: rest) (hd : s.clock.script = d :: ds)

include hv

theorem State.sample_of_script : s.sample = v := by simp [State.sample, hv]

theorem State.sampled_alike : AlikeButFlags s.sampled (s.withScript (w :: rest)).sampled := by
  refine ⟨?_, rfl⟩
  simp only [State.sampled, State.recordDiag, State.withScript, hv, List.tail_cons]

theorem State.seed_alike (hb : s.bridge.kind ≠ .noAnswer) (ht : stToggle v = stToggle w) :
    ∃ t u, stepRdSeed s = .next t ∧ stepRdSeed (s.withScript (w :: rest)) = .next u ∧ AlikeButFlags t u := by
  have ha : s.busAnswers = true := busAnswers_iff.2 hb
  have hw : (s.withScript (w :: rest)).sample = w := State.sample_of_script (rest := rest) rfl
  refine ⟨_, _, if_pos ha, if_pos ha, ?_⟩
  rw [State.sample_of_script hv, hw, ht]
  obtain ⟨e, hr⟩ := State.sampled_alike (w := w) hv
  rw [← e]
  exact ⟨rfl, hr⟩

include hd

theorem State.poll_sample_alike : AlikeButFlags s.sampled.timed (s.withScript (w :: rest)).sampled.timed := by
  refine ⟨?_, rfl⟩
  simp only [State.timed, State.sampled, State.recordDiag, State.withScript, State.now, hv, hd, List.tail_cons]

/-- Two polls on samples on which the condition agrees end alike, if their successes do. -/
theorem State.poll_alike {cond : Word → Bool} {limit : Nat} {wait : Wait} {pos : Word}
    {success : Word → Nat → State → State} (hb : s.bridge.kind ≠ .noAnswer) (hcond : cond v = cond w)
    (hs : ∀ t u x, AlikeButFlags t u → AlikeButFlags (success v x t) (success w x u)) :
    ∃ t u, s.poll cond limit wait pos success = .next t ∧
      (s.withScript (w :: rest)).poll cond limit wait pos success = .next u ∧ AlikeButFlags t u := by
  have ha : s.busAnswers = true := busAnswers_iff.2 hb
  have ha' : (s.withScript (w :: rest)).busAnswers = true := ha
  have hw : (s.withScript (w :: rest)).sample = w := State.sample_of_script (rest := rest) rfl
  have h := State.poll_sample_alike (w := w) hv hd
  simp only [State.poll, ha, ha', if_true, State.sample_of_script hv, hw, State.sampled_now_of_script hd,
    State.sampled_now_of_script (s := s.withScript (w :: rest)) hd, State.withScript_t0, State.withScript_clock, hcond]
  split_ifs
  · exact ⟨_, _, rfl, rfl, hs _ _ _ h⟩
  · exact ⟨_, _, rfl, rfl, (h.leaveUnsettled wait).respond _ _ _⟩
  · exact ⟨_, _, rfl, rfl, h⟩

/-- A sampling state's own step, on two status words that agree in the fields rules read. -/
theorem stepSeq_alike {q : Seq} (hq : q ∈ [Seq.awPoll, Seq.rdSeed, Seq.rdToggle, Seq.rdBusy, Seq.erBusy, Seq.ppBusy])
    (hb : s.bridge.kind ≠ .noAnswer) (ht : stToggle v = stToggle w) (hy : stBusy v = stBusy w) (hdata : stData v = stData w) :
    ∃ t u, stepSeq q s = .next t ∧ stepSeq q (s.withScript (w :: rest)) = .next u ∧ AlikeButFlags t u := by
  have hbusy : (!stBusy v) = !stBusy w := congrArg _ hy
  simp only [List.mem_cons, List.not_mem_nil, or_false] at hq
  obtain rfl | rfl | rfl | rfl | rfl | rfl := hq
  · simp only [stepSeq, stepAwPoll]
    exact State.poll_alike hv hd hb hbusy fun _ _ _ h => h.respond _ _ _
  · exact State.seed_alike hv hb ht
  · simp only [stepSeq, stepRdToggle]
    exact State.poll_alike hv hd hb (congrArg (· != s.lastToggle) ht) fun _ _ x h => h.edgeSeen x ht hdata
  · simp only [stepSeq, stepRdBusy]
    exact State.poll_alike hv hd hb hbusy fun _ _ _ h => h.byteDone
  · simp only [stepSeq, stepErBusy]
    exact State.poll_alike hv hd hb hbusy fun _ _ _ h => h.blockDone
  · simp only [stepSeq, stepPpBusy]
    exact State.poll_alike hv hd hb hbusy fun _ _ _ h => h.pageDone

end

end

/-- Settles O46: the words agree in the fields rules read, so the sampling state's steps end alike. -/
theorem ignoredStatusBitsChangeNoResult : Obligations.IgnoredStatusBitsChangeNoResult := by
  intro q s v w rest d ds hq h hv hd hmask hb
  obtain ⟨ht, hy, hdata⟩ := fields_of_masked hmask
  obtain ⟨t, u, hx, hx', halike⟩ := stepSeq_alike hv hd hq hb ht hy hdata
  have hidle : q ≠ .idle := fun e => absurd (e ▸ hq) (by decide)
  exact ⟨t, u, (step_of_at h hidle).trans hx, (step_of_at (State.withScript_at h _) hidle).trans hx', halike⟩

end Sys2Proof.Machine

/-! The host takes a response (R39, R249), and an OK response moves its operation on (R240, R243, R244). -/

namespace Sys2Proof.Machine

open Sys2Proof.Safety

section

variable {h : HostState} {r : Response}

/-! ### What every response does -/

/-- The last response and the log of its flags are the same. -/
def SameLog (h h' : HostState) : Prop := h'.last = h.last ∧ h'.diagLog = h.diagLog

theorem HostState.store_log (data : List Byte) (h : HostState) : SameLog h (h.store data) := by
  unfold HostState.store
  split
  · exact ⟨rfl, rfl⟩
  · split <;> exact ⟨rfl, rfl⟩

theorem HostState.onOk_log (r : Response) (h : HostState) : SameLog h (h.onOk r) := by
  unfold HostState.onOk
  split
  · split <;> exact ⟨rfl, rfl⟩
  · split <;> exact ⟨rfl, rfl⟩
  · split <;> exact ⟨rfl, rfl⟩
  · exact h.store_log _
  · exact ⟨rfl, rfl⟩

theorem HostState.onError_log (r : Response) (h : HostState) : SameLog h (h.onError r) := by
  unfold HostState.onError
  simp only
  split_ifs <;> split <;> exact ⟨rfl, rfl⟩

/-- A response is kept and its flags are logged, whatever they are (R249). -/
theorem HostState.receive_log (r : Response) (h : HostState) :
    (h.receive r).last = some r ∧ (h.receive r).diagLog = (r.diagIe, r.diagIw) :: h.diagLog := by
  unfold HostState.receive
  simp only
  split
  · exact HostState.onOk_log r _
  · exact HostState.onError_log r _

/-! ### The reactions to an OK response -/

/-- The host with a response kept and its flags logged (R249). -/
def HostState.noted (r : Response) (h : HostState) : HostState :=
  { h with last := some r, diagLog := (r.diagIe, r.diagIw) :: h.diagLog }

theorem HostState.receive_ok (hok : r.code = .ok) : h.receive r = (h.noted r).onOk r := if_pos hok

theorem HostState.receive_prewait (hok : r.code = .ok) (hp : h.phase = .prewaiting) (hop : h.op = .prewait) :
    h.receive r = (h.noted r).finish := by
  simp only [receive_ok hok, onOk, noted, hp, hop, if_true]

theorem HostState.receive_session (hok : r.code = .ok) (hp : h.phase = .prewaiting) (hop : h.op ≠ .prewait) :
    h.receive r = { h.noted r with phase := .chunk } := by
  simp only [receive_ok hok, onOk, noted, hp, if_neg hop]

theorem HostState.receive_written_verify (hok : r.code = .ok) (hp : h.phase = .writing) (hv : h.verify = true) :
    h.receive r = { h.noted r with phase := .readback } := by
  simp only [receive_ok hok, onOk, noted, hp, if_pos hv]

theorem HostState.receive_written (hok : r.code = .ok) (hp : h.phase = .writing) (hv : h.verify = false) :
    h.receive r = (h.noted r).nextChunk := by
  simp only [receive_ok hok, onOk, noted, hp, if_neg (Bool.eq_false_iff.1 hv)]

theorem HostState.mismatches_noted (data : List Byte) : (h.noted r).mismatches data = h.mismatches data := rfl

theorem HostState.receive_verified (hok : r.code = .ok) (hp : h.phase = .verifying) (hm : h.mismatches r.data = []) :
    h.receive r = (h.noted r).nextChunk := by
  have hp' : (h.noted r).phase = .verifying := hp
  simp only [receive_ok hok, onOk, hp', mismatches_noted, hm]

theorem HostState.receive_mismatch (hok : r.code = .ok) (hp : h.phase = .verifying) (hm : h.mismatches r.data ≠ []) :
    h.receive r = (h.noted r).fail (.verifyMismatch (h.mismatches r.data)) := by
  have hp' : (h.noted r).phase = .verifying := hp
  obtain ⟨m, ms, he⟩ := List.exists_cons_of_ne_nil hm
  simp only [receive_ok hok, onOk, hp', mismatches_noted, he]

end

/-- Settles O38: RESPOND holds the response until the host takes it, and the take keeps it and logs its flags. -/
theorem respondHoldsUntilTaken : Obligations.RespondHoldsUntilTaken :=
  ⟨fun _ => step_respond_held, fun s r h ht hr => ⟨_, step_respond_taken h ht hr, s.host.receive_log r⟩⟩

/-- Settles O58: an OK response moves each waiting phase on as its `receive` lemma says; the verify read is the
host's own move. -/
theorem anOkResponseMovesTheHostOn : Obligations.AnOkResponseMovesTheHostOn := by
  refine fun s => ⟨fun r h ht hr hok => ?_, fun h hport hp => ⟨_, step_idle h hport, ?_⟩⟩
  · obtain ⟨hlast, hlog⟩ := s.host.receive_log r
    refine ⟨_, step_respond_taken h ht hr, rfl, rfl, hlast, hlog, ?_⟩
    simp only
    refine ⟨fun hp => ?_, fun hp hv => ?_, fun hp hv => ?_, fun hp hm => ?_, fun hp hm => ?_⟩
    · by_cases hop : s.host.op = .prewait
      · rw [HostState.receive_prewait hok hp hop, if_pos hop]
        exact ⟨rfl, rfl⟩
      · rw [HostState.receive_session hok hp hop, if_neg hop]
        exact ⟨rfl, rfl⟩
    · rw [HostState.receive_written_verify hok hp hv]
      exact ⟨rfl, rfl⟩
    · rw [HostState.receive_written hok hp hv]
      exact ⟨rfl, rfl⟩
    · rw [HostState.receive_verified hok hp hm]
      exact ⟨rfl, rfl⟩
    · rw [HostState.receive_mismatch hok hp hm]
      exact ⟨rfl, rfl⟩
  · simp only [State.hostMove, hp]
    exact ⟨rfl, rfl⟩

end Sys2Proof.Machine

/-! Command words at the bridge (R65, R130 to R134, R142): every word is delivered by one register write, so each statement is
what that write answers and what the bridge's reaction does to its fields. -/

namespace Sys2Proof.Machine

open Sys2Proof.Safety

section

variable {s : State} {b : Bridge} {a : FlashAddr} {v : Word} {react : Bridge → Bridge}

/-! ### The delivery of a command word -/

theorem Bridge.modelled_iff : b.modelled = true ↔ b.kind ≠ .oracle ∧ b.kind ≠ .noAnswer := by
  unfold Bridge.modelled
  cases b.kind <;> decide

theorem State.regWrite_of_busAnswers (hb : s.busAnswers = true) : s.regWrite v react = .next (s.delivered v react) := if_pos hb

theorem State.delivered_of_modelled (hm : s.bridge.modelled = true) :
    s.delivered v react = { s with bridge := react s.bridge, trace := .regWrite Config.regAddr v :: s.trace } := by
  rw [State.delivered, if_pos hm]

/-- On a bridge that answers, a register write changes the bridge and the record alone: the oracle's fields stay, and every other
bridge reacts (R65, R136, R142). -/
theorem State.regWrite_changes_bridge_and_trace (v : Word) (react : Bridge → Bridge) (h : s.bridge.kind ≠ .noAnswer) :
    ∃ b, s.regWrite v react = .next { s with bridge := b, trace := .regWrite Config.regAddr v :: s.trace } ∧
      (s.bridge.kind = .oracle → b = s.bridge) ∧ (s.bridge.kind ≠ .oracle → b = react s.bridge) := by
  refine ⟨_, State.regWrite_of_busAnswers (busAnswers_iff.2 h), fun ho => ?_, fun ho => ?_⟩
  · exact if_neg fun hm => (Bridge.modelled_iff.1 hm).1 ho
  · exact if_pos (Bridge.modelled_iff.2 ⟨ho, h⟩)

/-! ### The bridge's reactions -/

theorem Bridge.takeRead_of_flips (hk : b.kind ≠ .constantToggle) :
    b.takeRead a = { b with dat := b.flash.read a.toNat, tog := !b.tog } := by
  rw [Bridge.takeRead, if_neg hk]

theorem Bridge.takeRead_of_constantToggle (hk : b.kind = .constantToggle) :
    b.takeRead a = { b with dat := b.flash.read a.toNat } := by
  rw [Bridge.takeRead, if_pos hk]

/-- A commit empties the page buffer, and changes nothing else but the flash and the counter of free flash bytes. -/
theorem Bridge.takeCommit_frame (a : FlashAddr) (b : Bridge) :
    b.takeCommit a = { b with flash := (b.takeCommit a).flash, pbuf := [], flashDraws := (b.takeCommit a).flashDraws } := by
  unfold Bridge.takeCommit
  split <;> rfl

theorem Bridge.takeCommit_of_fitsPage (h : FitsPage a.toNat b.pbuf.length) :
    b.takeCommit a = { b with flash := b.flash.program a.toNat b.pbuf, pbuf := [] } := if_pos h

theorem Bridge.read_takeCommit_other {x : Nat} (h : ∀ j < b.pbuf.length, x ≠ (a.toNat + j) % Config.flashBytes) :
    (b.takeCommit a).flash.read x = b.flash.read x := by
  obtain ⟨-, e⟩ | ⟨-, e⟩ := b.takeCommit_cases (a := a) <;> rw [e]
  · exact Memory.read_program_other _ _ _ h
  · exact Bridge.read_unsettle_other h

/-- A run of bytes inside one flash page does not wrap at the flash's end, since the flash is a whole number of pages (R69). -/
theorem Memory.read_program_fitsPage {m : Memory} {bs : List Byte} {j : Nat} (hw : m.wf = true)
    (hf : FitsPage a.toNat bs.length) (h : j < bs.length) : (m.program a.toNat bs).read (a.toNat + j) = bs[j] := by
  have ha := a.isLt
  have hwrap : (a.toNat + j) % Config.flashBytes = a.toNat + j := by
    simp only [FitsPage, Config.pageBytes, Config.flashBytes] at hf ⊢
    omega
  have hlen : bs.length ≤ Config.flashBytes := by
    simp only [FitsPage, Config.pageBytes, Config.flashBytes] at hf ⊢
    omega
  simpa only [hwrap] using Memory.read_program_same bs a.toNat j hw hlen h

end

/-- Settles O13: the READ word is one register write, and the bridge's kind says whether its toggle flips. -/
theorem readCommandPresentsTheByte : Obligations.ReadCommandPresentsTheByte := by
  intro a d s h
  obtain ⟨b, hx, horacle, hreact⟩ :=
    State.regWrite_changes_bridge_and_trace (cmd 0#3 (a.setWidth 32) d) (Bridge.takeRead a) h
  refine ⟨b, hx, fun hk => ?_, fun hk => ?_, horacle⟩
  · have hne : s.bridge.kind ≠ .oracle ∧ s.bridge.kind ≠ .constantToggle := by
      obtain hk | hk := hk <;> rw [hk] <;> decide
    rw [hreact hne.1, Bridge.takeRead_of_flips hne.2]
  · rw [hreact (hk ▸ nofun), Bridge.takeRead_of_constantToggle hk]

/-- Settles O14: the WRITE word is one register write; inside one flash page the commit is a program of the flash, and in either
case it leaves the bytes outside its span alone. -/
theorem commitCommandStoresThePageBuffer : Obligations.CommitCommandStoresThePageBuffer := by
  intro a d s h
  obtain ⟨b, hx, horacle, hreact⟩ :=
    State.regWrite_changes_bridge_and_trace (cmd 1#3 (a.setWidth 32) d) (Bridge.takeCommit a) h
  refine ⟨b, hx, horacle, fun hk => ?_⟩
  rw [hreact hk]
  refine ⟨Bridge.takeCommit_frame a _, fun hw hf => ?_, fun x hx => Bridge.read_takeCommit_other hx⟩
  rw [Bridge.takeCommit_of_fitsPage hf]
  exact ⟨rfl, fun j hj => Memory.read_program_fitsPage hw hf hj⟩

/-- Settles O15: the SECTOR_ERASE word is one register write, and every other bridge than the oracle erases the sector. -/
theorem eraseCommandErasesOneSector : Obligations.EraseCommandErasesOneSector := by
  intro a d s h
  obtain ⟨b, hx, horacle, hreact⟩ :=
    State.regWrite_changes_bridge_and_trace (cmd 2#3 (a.setWidth 32) d) (Bridge.takeErase a) h
  refine ⟨b, hx, horacle, fun hk => ?_⟩
  rw [hreact hk]
  exact ⟨rfl, fun x => Memory.read_eraseSector a.toNat x s.bridge.flash⟩

/-- Settles O16: the PAGE_PROGRAM word is one register write, and the reaction to it is the load. -/
theorem loadCommandAppendsToThePageBuffer : Obligations.LoadCommandAppendsToThePageBuffer :=
  fun a d _ h => State.regWrite_changes_bridge_and_trace (cmd 4#3 (a.setWidth 32) d) (Bridge.takeLoad d) h

end Sys2Proof.Machine

/-! One page of PAGE_PROGRAM or WRITE on the reference bridge (R208 to R210): its loads, by induction on how many are left, then
the commit and one sample of the wait. -/

namespace Sys2Proof.Machine

open Sys2Proof.Safety

section

variable {s : State}

theorem modelled_of_reference (hk : s.bridge.kind = .reference) : s.bridge.modelled = true :=
  Bridge.modelled_iff.2 (by rw [hk]; decide)

/-! ### The accesses on record -/

theorem accesses_delivered (v : Word) (react : Bridge → Bridge) (s : State) :
    accesses (s.delivered v react) = accesses s + 1 := List.countP_cons_of_pos rfl

theorem accesses_sampled (s : State) : accesses s.sampled = accesses s + 1 := List.countP_cons_of_pos rfl

theorem accesses_timed (s : State) : accesses s.timed = accesses s := List.countP_cons_of_neg nofun

theorem accesses_startWait (q : Seq) (s : State) : accesses (s.startWait q) = accesses s := accesses_timed s

/-! ### The steps of a page -/

theorem step_load (h : At .ppLoad s) (hb : s.busAnswers = true) (hi : s.loadIndex < s.wdata.length) :
    step s = .next (s.delivered (cmd 4#3 0#32 (romIf s.loadReversed s.wdata[s.loadIndex]))
      (Bridge.takeLoad (romIf s.loadReversed s.wdata[s.loadIndex]))).loadDone := by
  rw [step_of_at h nofun]
  simp only [stepSeq, stepPpLoad, List.getElem?_eq_getElem hi, State.issue_pageProgram, State.regWrite_of_busAnswers hb,
    Result.andThen_next]

theorem step_commit (h : At .ppCommit s) (hb : s.busAnswers = true) :
    step s = .next ((s.delivered (cmd 1#3 s.commitAddress 0#8)
      (Bridge.takeCommit (s.commitAddress.setWidth 21))).startWait .ppBusy) := by
  rw [step_of_at h nofun]
  simp only [stepSeq, stepPpCommit, State.issueAndWait, State.issue_write, State.regWrite_of_busAnswers hb,
    Result.andThen_next]

theorem step_ppBusy_done (h : At .ppBusy s) (hb : s.busAnswers = true) (hc : stBusy s.sample = false) :
    step s = .next s.sampled.timed.pageDone := by
  rw [step_of_at h nofun]
  simp only [stepSeq, stepPpBusy, State.poll, if_pos hb, hc, Bool.not_false, if_true]

/-! ### The loads -/

/-- Where the sequencer stands in a page with `r.j` bytes loaded: at the next load, or at the commit (R208). -/
def State.loadSeq (s : State) : Seq := if s.j = s.plen then .ppCommit else .ppLoad

/-- The next `n` bytes to load, as the load words carry them (R208). -/
def State.loadBytes (n : Nat) (s : State) : List Byte := ((s.wdata.drop s.loadIndex).take n).map (romIf s.loadReversed)

/-- The state with one more byte in the page buffer (R142, R208). -/
def State.loadedByte (w : Byte) (s : State) : State :=
  { s with
    seq := (State.loadSeq { s with j := s.j + 1#9 }).code
    j := s.j + 1#9
    bridge := s.bridge.takeLoad w
    trace := .regWrite Config.regAddr (cmd 4#3 0#32 w) :: s.trace }

/-- The state at the commit of a page with the given bytes more in the page buffer, and the given record. -/
def State.loadedPage (bytes : List Byte) (trace : List BusEvent) (s : State) : State :=
  { s with
    seq := Seq.ppCommit.code, j := s.plen, bridge := { s.bridge with pbuf := s.bridge.pbuf ++ bytes }, trace := trace }

theorem State.loadDone_delivered (w : Byte) (hm : s.bridge.modelled = true) :
    (s.delivered (cmd 4#3 0#32 w) (Bridge.takeLoad w)).loadDone = s.loadedByte w := by
  rw [State.delivered_of_modelled hm, State.loadDone, State.loadedByte, State.loadSeq]
  simp only
  split_ifs <;> rfl

theorem State.loadedPage_nil (hq : s.seq = Seq.ppCommit.code) (hj : s.j = s.plen) :
    s.loadedPage [] s.trace = s := by
  rw [State.loadedPage, List.append_nil]
  cases s
  cases hq
  cases hj
  rfl

theorem State.loadedPage_loadedByte (w : Byte) (bytes : List Byte) (trace : List BusEvent) :
    (s.loadedByte w).loadedPage bytes trace = s.loadedPage (w :: bytes) trace := by
  simp only [State.loadedPage, State.loadedByte, Bridge.takeLoad, List.append_assoc, List.singleton_append]

theorem accesses_loadedByte (w : Byte) (s : State) : accesses (s.loadedByte w) = accesses s + 1 := List.countP_cons_of_pos rfl

theorem State.loadBytes_loadedByte {n : Nat} (hi : s.loadIndex < s.wdata.length) (hj : (s.j + 1#9).toNat = s.j.toNat + 1) :
    s.loadBytes (n + 1) =
      romIf s.loadReversed s.wdata[s.loadIndex] :: (s.loadedByte (romIf s.loadReversed s.wdata[s.loadIndex])).loadBytes n := by
  have hnext (w : Byte) : (s.loadedByte w).loadIndex = s.loadIndex + 1 := congrArg (s.pbase.toNat + ·) hj
  rw [State.loadBytes, List.drop_eq_getElem_cons hi, List.take_succ_cons, List.map_cons, State.loadBytes, hnext]
  rfl

/-- From a point of a page with `n` loads left, `n` steps load the rest of its bytes with as many accesses. -/
theorem run_loads : ∀ (n : Nat) {s : State}, At s.loadSeq s → s.bridge.modelled = true → s.j.toNat + n = s.plen.toNat →
    s.pbase.toNat + s.plen.toNat ≤ s.wdata.length →
    ∃ trace, core.run n s = .next (s.loadedPage (s.loadBytes n) trace) ∧
      trace.countP BusEvent.isAccess = accesses s + n
  | 0, s, h, _, hj, _ => by
    have hlast : s.j = s.plen := BitVec.eq_of_toNat_eq hj
    rw [State.loadSeq, if_pos hlast] at h
    exact ⟨s.trace, congrArg _ (State.loadedPage_nil h.1 hlast).symm, rfl⟩
  | n + 1, s, h, hm, hj, hw => by
    have hmore : s.j ≠ s.plen := fun e => by rw [e] at hj; omega
    have hnext : (s.j + 1#9).toNat = s.j.toNat + 1 := by bv_omega
    have hi : s.loadIndex < s.wdata.length := by unfold State.loadIndex; omega
    rw [State.loadSeq, if_neg hmore] at h
    have hstep := step_load h (busAnswers_iff.2 (Bridge.modelled_iff.1 hm).2) hi
    rw [State.loadDone_delivered _ hm] at hstep
    obtain ⟨-, hr, hp⟩ := h
    obtain ⟨trace, hrun, hcount⟩ := run_loads n (s := s.loadedByte _) ⟨rfl, hr, hp⟩ hm
      (show (s.j + 1#9).toNat + n = s.plen.toNat by omega) hw
    refine ⟨trace, ?_, hcount.trans ?_⟩
    · rw [core_run_succ n hstep, hrun, State.loadedPage_loadedByte, State.loadBytes_loadedByte hi hnext]
    · rw [accesses_loadedByte]
      omega

/-! ### The commit and its wait -/

@[simp] theorem stIllegalErase_statusWord (t b : Bool) (d : Byte) : stIllegalErase (statusWord t b d) = false := by
  cases t <;> cases b <;> revert d <;> decide

@[simp] theorem stIllegalWrite_statusWord (t b : Bool) (d : Byte) : stIllegalWrite (statusWord t b d) = false := by
  cases t <;> cases b <;> revert d <;> decide

/-- The reference bridge is never busy (R141). -/
theorem State.sample_reference (hk : s.bridge.kind = .reference) (hscript : s.bridge.script = []) :
    s.sample = statusWord s.bridge.tog false s.bridge.dat := by
  simp only [State.sample, hscript, Bridge.modelled, Bridge.status, hk, if_true]
  rfl

/-- The state in the wait of a page's commit, before its sample (R209). -/
def State.committing (s : State) : State :=
  (s.delivered (cmd 1#3 s.commitAddress 0#8) (Bridge.takeCommit (s.commitAddress.setWidth 21))).startWait .ppBusy

theorem State.committing_bridge (hm : s.bridge.modelled = true) :
    s.committing.bridge = s.bridge.takeCommit (s.commitAddress.setWidth 21) := if_pos hm

/-- The state after a page whose commit is seen done at its first sample (R210). -/
def State.pageEnded (s : State) : State := s.committing.sampled.timed.pageDone

theorem State.committing_sample (hk : s.bridge.kind = .reference) (hscript : s.bridge.script = []) :
    s.committing.sample = statusWord s.bridge.tog false s.bridge.dat := by
  have hbridge := State.committing_bridge (modelled_of_reference hk)
  rw [Bridge.takeCommit_frame] at hbridge
  rw [State.sample_reference (by rw [hbridge]; exact hk) (by rw [hbridge]; exact hscript), hbridge]

/-- On the reference bridge the first sample after the commit ends the page (R210). -/
theorem run_commit (h : At .ppCommit s) (hk : s.bridge.kind = .reference) (hscript : s.bridge.script = []) :
    core.run 2 s = .next s.pageEnded := by
  have hm := modelled_of_reference hk
  have hb : s.busAnswers = true := busAnswers_iff.2 (Bridge.modelled_iff.1 hm).2
  have hbridge := State.committing_bridge hm
  have hstep : step s = .next s.committing := step_commit h hb
  obtain ⟨-, hr, hp⟩ := h
  have hat : At .ppBusy s.committing := ⟨rfl, hr, by rw [hbridge, Bridge.takeCommit_posted, hp]⟩
  have hanswers : s.committing.busAnswers = true := by
    rw [State.busAnswers, hbridge, Bridge.takeCommit_frame]
    exact hb
  have hidle : stBusy s.committing.sample = false := by rw [State.committing_sample hk hscript, stBusy_statusWord]
  rw [core_run_succ 1 hstep, core_run_succ 0 (step_ppBusy_done hat hanswers hidle), core_run_zero, State.pageEnded]

/-! ### What a page leaves behind -/

theorem State.pageEnded_bridge (hm : s.bridge.modelled = true) :
    s.pageEnded.bridge =
      { s.bridge.takeCommit (s.commitAddress.setWidth 21) with
        script := (s.bridge.takeCommit (s.commitAddress.setWidth 21)).script.tail } := by
  rw [State.pageEnded, (State.pageDone_move _).bridge, State.timed_bridge, State.sampled_bridge, State.committing_bridge hm]

theorem State.pageEnded_pbuf (hm : s.bridge.modelled = true) : s.pageEnded.bridge.pbuf = [] := by
  rw [State.pageEnded_bridge hm, Bridge.takeCommit_frame]

theorem State.commitAddress_masked (s : State) :
    (s.commitAddress.setWidth 21).toNat = (s.addr + s.pbase).toNat % 2 ^ 21 := BitVec.toNat_setWidth _ _

/-- Inside one flash page the buffer is stored at the page's masked address; the mask keeps the offset in the flash page (R61). -/
theorem State.pageEnded_flash (hm : s.bridge.modelled = true)
    (hfits : (s.addr + s.pbase).toNat % 256 + s.bridge.pbuf.length ≤ 256) :
    s.pageEnded.bridge.flash = s.bridge.flash.program (s.commitAddress.setWidth 21).toNat s.bridge.pbuf := by
  have hpage : FitsPage (s.commitAddress.setWidth 21).toNat s.bridge.pbuf.length := by
    simp only [FitsPage, Config.pageBytes, State.commitAddress_masked]
    omega
  rw [State.pageEnded_bridge hm, Bridge.takeCommit_of_fitsPage hpage]

theorem State.read_pageEnded_other {x : Nat} (hm : s.bridge.modelled = true)
    (hx : ∀ j < s.bridge.pbuf.length, x ≠ ((s.addr + s.pbase).toNat % 2 ^ 21 + j) % 2 ^ 21) :
    s.pageEnded.bridge.flash.read x = s.bridge.flash.read x := by
  rw [State.pageEnded_bridge hm]
  exact Bridge.read_takeCommit_other (by rwa [State.commitAddress_masked])

theorem accesses_pageEnded (s : State) : accesses s.pageEnded = accesses s + 2 := by
  have htrace : accesses s.pageEnded = accesses s.committing.sampled.timed :=
    congrArg (List.countP BusEvent.isAccess) (State.pageDone_move _).trace
  rw [htrace, accesses_timed, accesses_sampled, State.committing, accesses_startWait, accesses_delivered]

theorem State.pageEnded_more (h : s.pbase.toNat + 256 < s.len.toNat) :
    s.pageEnded = s.committing.sampled.timed.startPage (s.pbase + 256#32) := if_pos h

theorem State.pageEnded_rsp (hk : s.bridge.kind = .reference) (hscript : s.bridge.script = [])
    (h : ¬ s.pbase.toNat + 256 < s.len.toNat) :
    s.pageEnded.seq = Seq.respond.code ∧
      s.pageEnded.rsp = some { code := .ok, info := .empty, data := [], diagIe := s.diagIe, diagIw := s.diagIw } := by
  have hie : s.committing.sampled.diagIe = s.diagIe := by
    rw [State.sampled_diagIe, State.committing_sample hk hscript, stIllegalErase_statusWord, Bool.or_false]
    rfl
  have hiw : s.committing.sampled.diagIw = s.diagIw := by
    rw [State.sampled_diagIw, State.committing_sample hk hscript, stIllegalWrite_statusWord, Bool.or_false]
    rfl
  have hlast : s.pageEnded = State.respondOk [] { s.committing.sampled.timed with pbase := s.pbase + 256#32 } := if_neg h
  rw [hlast, ← hie, ← hiw]
  exact ⟨rfl, rfl⟩

/-! ### The bytes of a page -/

theorem State.loadBytes_length {n : Nat} (h : s.loadIndex + n ≤ s.wdata.length) : (s.loadBytes n).length = n := by
  simp only [State.loadBytes, List.length_map, List.length_take, List.length_drop]
  omega

theorem romIf_loadReversed (w : Byte) :
    romIf s.loadReversed w = if s.kind = 4#3 ∧ s.rev = true then rom w else w := by
  simp only [romIf, State.loadReversed, kindWrite, Bool.and_eq_true, beq_iff_eq]

theorem State.loadIndex_pageStart (hj : s.j = 0#9) : s.loadIndex = s.pbase.toNat := by
  rw [State.loadIndex, hj]
  rfl

theorem State.loadBytes_pageStart (n : Nat) (hj : s.j = 0#9) :
    s.loadBytes n = ((s.wdata.drop s.pbase.toNat).take n).map fun w => if s.kind = 4#3 ∧ s.rev = true then rom w else w := by
  rw [State.loadBytes, State.loadIndex_pageStart hj, funext romIf_loadReversed]

/-- The page lies inside the data, and has at least one byte (R200). -/
theorem page_bounds_of_programming (h : Programming s) :
    0 < s.plen.toNat ∧ s.pbase.toNat + s.plen.toNat ≤ s.wdata.length := by
  obtain ⟨-, hlen, hbase, -, hplen, -⟩ := h
  simp only [Config.pageBytes] at hplen
  omega

/-- The loads of a whole page (R208). -/
theorem run_pageLoads (h : At .ppLoad s) (hprog : Programming s) (hj : s.j = 0#9) (hm : s.bridge.modelled = true) :
    ∃ trace, core.run s.plen.toNat s = .next (s.loadedPage (s.loadBytes s.plen.toNat) trace) ∧
      trace.countP BusEvent.isAccess = accesses s + s.plen.toNat := by
  obtain ⟨hpos, hdata⟩ := page_bounds_of_programming hprog
  have hj0 : s.j.toNat = 0 := congrArg BitVec.toNat hj
  have hfirst : s.loadSeq = .ppLoad := if_neg fun e => by rw [e] at hj0; omega
  exact run_loads s.plen.toNat (hfirst.symm ▸ h) hm (by omega) hdata

end

/-- Settles O52: the page's loads fill the empty page buffer, and its commit, seen done at the first sample, does to the flash
what a commit does. -/
theorem onePageOnTheReferenceBridge : Obligations.OnePageOnTheReferenceBridge := by
  intro s h hprog hj hk hscript hpbuf
  have hm := modelled_of_reference hk
  obtain ⟨trace, hrun, hcount⟩ := run_pageLoads h hprog hj hm
  obtain ⟨-, hdata⟩ := page_bounds_of_programming hprog
  obtain ⟨-, -, -, -, -, hrsp⟩ := hprog
  obtain ⟨-, hr, hp⟩ := h
  let u := s.loadedPage (s.loadBytes s.plen.toNat) trace
  have hcommit : core.run 2 u = .next u.pageEnded := run_commit ⟨rfl, hr, hp⟩ hk hscript
  have hbuffer : u.bridge.pbuf = s.loadBytes s.plen.toNat := congrArg (· ++ _) hpbuf
  have hspan : u.bridge.pbuf.length = s.plen.toNat := by
    rw [hbuffer, State.loadBytes_length (by rwa [State.loadIndex_pageStart hj])]
  refine ⟨u.pageEnded, (core_run_add _ 2 hrun).trans hcommit, ?_, State.pageEnded_pbuf hm, fun hfits => ?_, fun x hx => ?_,
    fun hmore => ?_, fun hlast => ?_⟩
  · rw [accesses_pageEnded, show accesses u = _ from hcount]
  · rw [State.pageEnded_flash (s := u) hm (hspan ▸ hfits), hbuffer, State.loadBytes_pageStart _ hj]
    rfl
  · exact State.read_pageEnded_other (s := u) hm (hspan ▸ hx)
  · rw [State.pageEnded_more (s := u) hmore]
    exact ⟨rfl, rfl, rfl, hrsp⟩
  · exact State.pageEnded_rsp hk hscript (Nat.not_lt.2 hlast)

end Sys2Proof.Machine

/-! Encoding (R90 to R101): the fields of a command word as numbers, and decoding as the inverse of encoding. -/

namespace Sys2Proof

/-! ### The fields of a command word (R90, R91) -/

/-- The three fields cover a command word, each at its place. -/
theorem toNat_eq_fields (v : Word) :
    v.toNat = (opField v).toNat * 2 ^ 29 + (flashAddr v).toNat * 2 ^ 8 + (dataField v).toNat := by
  have hv : v.toNat < 2 ^ 32 := v.isLt
  simp only [opField, flashAddr, dataField, BitVec.extractLsb'_toNat, Nat.shiftRight_eq_div_pow]
  omega

theorem cmd_toNat (op : BitVec 3) (a : Word) (d : Byte) :
    (cmd op a d).toNat = op.toNat * 2 ^ 29 + a.toNat % 2 ^ 21 * 2 ^ 8 + d.toNat := by
  rw [toNat_eq_fields, opField_cmd, flashAddr_cmd, dataField_cmd, BitVec.toNat_setWidth]

/-- The address mask keeps the 21 bits a command word carries (R91). -/
theorem setWidth_and_addrMask (a : Word) : (a &&& Config.addrMask).setWidth 21 = a.setWidth 21 := by
  have hmask : Config.addrMask.setWidth 21 = BitVec.allOnes 21 := rfl
  rw [BitVec.setWidth_and, hmask, BitVec.and_allOnes]

theorem setWidth_flashAddr (a : FlashAddr) : (a.setWidth 32).setWidth 21 = a := by
  rw [BitVec.setWidth_setWidth_of_le _ (by decide), BitVec.setWidth_eq]

/-- A command word is the one built from its own fields. -/
theorem cmd_fields (v : Word) : cmd (opField v) ((flashAddr v).setWidth 32) (dataField v) = v := by
  apply BitVec.eq_of_toNat_eq
  rw [cmd_toNat, ← BitVec.toNat_setWidth, setWidth_flashAddr, ← toNat_eq_fields]

/-! ### The instruction of a decoded triple (R94, R99) -/

/-- The command word instruction of an operation field, with the other two fields as its operands (R94, R99). -/
def instrOfFields (op : BitVec 3) (a : FlashAddr) (d : Byte) : Instr :=
  match op.toNat with
  | 0 => .read a d
  | 1 => .write a d
  | 2 => .sectorErase a d
  | 3 => .readStatus a d
  | 4 => .pageProgram a d
  | 5 => .reserved5 a d
  | 6 => .reserved6 a d
  | _ => .reserved7 a d

theorem decodeCmd_eq_instrOfFields (v : Word) : decodeCmd v = instrOfFields (opField v) (flashAddr v) (dataField v) := rfl

theorem decode_cmdPacket (op : BitVec 3) (a : FlashAddr) (d : Byte) : decode (cmdPacket op a d) = instrOfFields op a d := by
  rw [cmdPacket, decode, decodeCmd_eq_instrOfFields, opField_cmd, flashAddr_cmd, dataField_cmd, setWidth_flashAddr]

theorem encode_instrOfFields (op : BitVec 3) (a : FlashAddr) (d : Byte) : encode (instrOfFields op a d) = cmdPacket op a d := by
  fin_cases op <;> rfl

/-- Settles O2: a command word decodes by the fields it was built from, and a request record by its kind. -/
theorem decodeOfEncodeIsIdentity : Obligations.DecodeOfEncodeIsIdentity := by
  intro i
  cases i with
  | read | write | sectorErase | readStatus | pageProgram | reserved5 | reserved6 | reserved7 => exact decode_cmdPacket ..
  | awaitNotBusy | readBytes | erase | pageProgramReq | writeReq | reqReserved5 | reqReserved6 | reqReserved7 => rfl

/-- Settles O3: the instruction keeps all three fields, and they cover the word. -/
theorem encodeOfDecodedWordIsTheWord : Obligations.EncodeOfDecodedWordIsTheWord := by
  intro w
  rw [decodeCmd_eq_instrOfFields, encode_instrOfFields, cmdPacket, cmd_fields]

/-- Settles O4: the word is the sum of its fields, and the mask keeps what the address field carries. -/
theorem commandWordIsItsFields : Obligations.CommandWordIsItsFields :=
  ⟨fun op a d => ⟨cmd_toNat op a d, by rw [flashAddr_cmd, setWidth_and_addrMask]⟩, toNat_eq_fields⟩

/-- Settles O1: each word and each record is fixed, so the decoder computes its instruction. -/
theorem writtenOutWordsDecode : Obligations.WrittenOutWordsDecode := by
  unfold Obligations.WrittenOutWordsDecode
  decide

end Sys2Proof

/-! The words of R97 to R101 in use: which command words the block emits, and the instructions that are only delivered or are
refused. -/

namespace Sys2Proof.Machine

open Sys2Proof.Safety

section

variable {s t : State} {v : Word} {x : Nat}

/-! ### The words the block emits (R99) -/

/-- What was added to the record between two states holds no word but those R99 lists. -/
def EmitsListed (s t : State) : Prop :=
  ∃ es, Added s t es ∧ ∀ a v, BusEvent.regWrite a v ∈ es → (decodeCmd v).emittable = true

theorem EmitsListed.nothing (h : t.trace = s.trace) : EmitsListed s t := ⟨[], h, nofun⟩

theorem EmitsListed.time (h : t.trace = .time x :: s.trace) : EmitsListed s t := ⟨[_], h, by simp⟩

theorem EmitsListed.read (h : t.trace = s.sampled.trace) : EmitsListed s t := ⟨[_], h, by simp⟩

theorem EmitsListed.poll (h : t.trace = s.sampled.timed.trace) : EmitsListed s t := ⟨[_, _], h, by simp⟩

theorem EmitsListed.write (hv : (decodeCmd v).emittable = true) (h : t.trace = .regWrite Config.regAddr v :: s.trace) :
    EmitsListed s t := ⟨[_], h, by simpa using hv⟩

theorem EmitsListed.writeThenTime (hv : (decodeCmd v).emittable = true)
    (h : t.trace = .time x :: .regWrite Config.regAddr v :: s.trace) : EmitsListed s t := ⟨[_, _], h, by simpa using hv⟩

theorem emittable_cmd_read (a : Word) : (decodeCmd (cmd 0#3 a 0#8)).emittable = true := by
  rw [decodeCmd_cmd_read]
  rfl

theorem emittable_cmd_write (a : Word) : (decodeCmd (cmd 1#3 a 0#8)).emittable = true := by
  rw [decodeCmd_cmd_write]
  rfl

theorem emittable_cmd_pageProgram (d : Byte) : (decodeCmd (cmd 4#3 0#32 d)).emittable = true := by
  rw [decodeCmd_cmd_pageProgram]
  rfl

/-- A SECTOR_ERASE word keeps the alignment of its address operand: a sector divides the flash (R61, R68). -/
theorem emittable_cmd_sectorErase {a : Word} (ha : sectorAligned a = true) :
    (decodeCmd (cmd 2#3 a 0#8)).emittable = true := by
  simp only [sectorAligned, Config.sectorBytes, beq_iff_eq] at ha
  simpa [decodeCmd_cmd_sectorErase, Instr.emittable, Config.sectorBytes] using ha

/-- Every block of an aligned region is aligned (R203). -/
theorem sectorAligned_blockAddress (h : sectorAligned s.addr = true) : sectorAligned s.blockAddress = true := by
  simp only [sectorAligned, Config.sectorBytes, beq_iff_eq, State.blockAddress, BitVec.toNat_add, BitVec.toNat_mul,
    BitVec.toNat_ofNat] at h ⊢
  omega

/-- With no word posted, the words of a step are those of the four command states (R182, R203, R208, R209). -/
theorem StepCase.emitsListed (h : StepCase s t) (hinv : Inv s) (hposted : s.bridge.posted = none) : EmitsListed s t := by
  cases h with
  | command _ _ _ _ hp => exact nomatch hposted.symm.trans hp
  | reset | held | taken => exact .nothing rfl
  | host => exact .nothing s.hostMove_trace
  | read => exact .nothing (State.startRead_move _).trace
  | erase => exact .nothing (State.startErase_move _).trace
  | program => exact .nothing (State.startProgram_move _).trace
  | write => exact .nothing (State.startWrite_move _).trace
  | await => exact .time rfl
  | seed => exact .read rfl
  | again | timeout | awaitDone | edge => exact .poll rfl
  | byteDone => exact .poll (State.byteDone_move _).trace
  | blockDone => exact .poll (State.blockDone_move _).trace
  | pageDone => exact .poll (State.pageDone_move _).trace
  | readCmd => exact .writeThenTime (emittable_cmd_read _) rfl
  | eraseCmd hq =>
    have ⟨_, halign, _⟩ : Erasing s := hinv.seqInv hq.1
    exact .writeThenTime (emittable_cmd_sectorErase (sectorAligned_blockAddress halign)) rfl
  | load => exact .write (emittable_cmd_pageProgram _) (State.loadDone_move _).trace
  | commit => exact .writeThenTime (emittable_cmd_write _) rfl

end

/-- Settles O41: of all a step can do, only the four command states write a word, and the invariant aligns the erase. -/
theorem onlyListedWordsAreEmitted : Obligations.OnlyListedWordsAreEmitted :=
  fun _ _ hinv hposted hx => (step_cases hx).emitsListed hinv hposted

/-! ### Words without an effect and reserved request kinds (R97, R101, R133) -/

/-- A word the bridge does not react to is on record and changes nothing else (R65). -/
theorem State.regWrite_without_reaction {s : State} (v : Word) (h : s.bridge.kind ≠ .noAnswer) :
    s.regWrite v (fun b => b) = .next { s with trace := .regWrite Config.regAddr v :: s.trace } := by
  rw [State.regWrite_of_busAnswers (busAnswers_iff.2 h), State.delivered, ite_self]

/-- Settles O17: the bridge does not react to any of the four words. -/
theorem unassignedCommandsAreOnlyDelivered : Obligations.UnassignedCommandsAreOnlyDelivered :=
  fun _ _ _ h => ⟨State.regWrite_without_reaction _ h, State.regWrite_without_reaction _ h,
    State.regWrite_without_reaction _ h, State.regWrite_without_reaction _ h⟩

/-- Settles O24: the meaning of each reserved kind is its refusal, whatever the state. -/
theorem reservedKindsAreRefused : Obligations.ReservedKindsAreRefused := fun _ => ⟨rfl, rfl, rfl⟩

end Sys2Proof.Machine

/-! The bit-reversal ROM (R120, R122): its entry is the library's `BitVec.reverse` of the index, and the fixed points are the
bytes whose low half mirrors the high half. -/

namespace Sys2Proof.Machine

/-! ### The entry as a reflection (R120) -/

/-- The ROM appends the bits of its index from bit 0 on, so bit 7 of the index comes out lowest. -/
theorem rom_eq_ofBoolListLE (b : Byte) : rom b = BitVec.ofBoolListLE ((List.range 8).map fun i => b.getLsbD (7 - i)) := by
  have hfirst (c : Bool) : BitVec.ofBool c = 0#0 ++ BitVec.ofBool c := by cases c <;> rfl
  rw [rom, hfirst (b.getLsbD 0)]
  rfl

/-- Settles O5: the ROM's entry lists the bits of its index from bit 7 down, lowest first. -/
theorem romReflectsBits : Obligations.RomReflectsBits := by
  intro b i hi
  rw [rom_eq_ofBoolListLE]
  exact BitVec.getLsbD_ofBoolListLE.trans (by simp [hi])

theorem rom_eq_reverse (b : Byte) : rom b = b.reverse :=
  BitVec.eq_of_getLsbD_eq fun i hi => by
    rw [romReflectsBits b i hi, BitVec.getLsbD_reverse, BitVec.getMsbD, decide_eq_true hi, Bool.true_and]

theorem rom_involutive : Function.Involutive rom := fun b => by
  rw [rom_eq_reverse, rom_eq_reverse, BitVec.reverse_reverse_eq]

theorem rom_append (h l : BitVec 4) : rom (h ++ l) = l.reverse ++ h.reverse :=
  (rom_eq_reverse _).trans BitVec.reverse_append

/-! ### The fixed points (R122) -/

/-- The byte with high half `h` that reads the same from either end. -/
def palindrome (h : BitVec 4) : Byte := h ++ h.reverse

/-- The palindromes, one for each high half. -/
def palindromes : List Byte := (List.finRange 16).map fun h => palindrome (BitVec.ofFin h)

theorem mem_palindromes {b : Byte} : b ∈ palindromes ↔ ∃ h, palindrome h = b := by
  rw [palindromes, List.mem_map]
  exact ⟨fun ⟨_, _, hb⟩ => ⟨_, hb⟩, fun ⟨h, hb⟩ => ⟨h.toFin, List.mem_finRange _, hb⟩⟩

theorem rom_palindrome (h : BitVec 4) : rom (palindrome h) = palindrome h := by
  rw [palindrome, rom_append, BitVec.reverse_reverse_eq]

theorem palindrome_eq_of_rom_eq_self {h l : BitVec 4} (hfix : rom (h ++ l) = h ++ l) : palindrome h = h ++ l := by
  have hlow : h.reverse = l := by
    rw [← BitVec.extractLsb'_append_eq_right (a := l.reverse) (b := h.reverse), ← rom_append, hfix,
      BitVec.extractLsb'_append_eq_right]
  rw [palindrome, hlow]

theorem rom_eq_self_iff (b : Byte) : rom b = b ↔ b ∈ palindromes := by
  rw [mem_palindromes]
  constructor
  · intro hfix
    rw [← BitVec.extractLsb'_append_extractLsb' (w := 4) (len := 4) (x := b)] at hfix ⊢
    exact ⟨_, palindrome_eq_of_rom_eq_self hfix⟩
  · rintro ⟨h, rfl⟩
    exact rom_palindrome h

/-- R122's list: its `n`-th byte is the palindrome with high half `n`. -/
theorem palindromes_eq : palindromes =
    [0x00#8, 0x18#8, 0x24#8, 0x3C#8, 0x42#8, 0x5A#8, 0x66#8, 0x7E#8, 0x81#8, 0x99#8, 0xA5#8, 0xBD#8, 0xC3#8, 0xDB#8,
      0xE7#8, 0xFF#8] := by
  decide

/-- Settles O6: a reflection is its own inverse, and a fixed byte is the palindrome of its high half. -/
theorem romIsAnInvolutionWithSixteenFixedPoints : Obligations.RomIsAnInvolutionWithSixteenFixedPoints :=
  ⟨rom_involutive, rom_involutive.bijective, fun b => palindromes_eq ▸ rom_eq_self_iff b⟩

end Sys2Proof.Machine

/-! ERASE on the reference bridge (R200 to R204): its blocks, by induction on how many are left, each a SECTOR_ERASE command and
one sample of its wait. -/

namespace Sys2Proof.Machine

open Sys2Proof.Safety

section

variable {s : State}

/-! ### One block -/

/-- The state in the wait of a block's erase, before its sample (R203). -/
def State.erasingBlock (s : State) : State :=
  (s.delivered (cmd 2#3 s.blockAddress 0#8) (Bridge.takeErase (s.blockAddress.setWidth 21))).startWait .erBusy

/-- The state after a block whose erase is seen done at its first sample (R204). -/
def State.blockErased (s : State) : State := s.erasingBlock.sampled.timed.blockDone

theorem step_erase (h : At .erCmd s) (hb : s.busAnswers = true) : step s = .next s.erasingBlock := by
  rw [step_of_at h nofun]
  simp only [stepSeq, stepErCmd, State.issueAndWait, State.issue_sectorErase, State.regWrite_of_busAnswers hb,
    Result.andThen_next, State.erasingBlock]

theorem step_erBusy_done (h : At .erBusy s) (hb : s.busAnswers = true) (hc : stBusy s.sample = false) :
    step s = .next s.sampled.timed.blockDone := by
  rw [step_of_at h nofun]
  simp only [stepSeq, stepErBusy, State.poll, if_pos hb, hc, Bool.not_false, if_true]

theorem State.erasingBlock_bridge (hm : s.bridge.modelled = true) :
    s.erasingBlock.bridge = s.bridge.takeErase (s.blockAddress.setWidth 21) := if_pos hm

theorem State.erasingBlock_sample (hk : s.bridge.kind = .reference) (hscript : s.bridge.script = []) :
    s.erasingBlock.sample = statusWord s.bridge.tog false s.bridge.dat := by
  have hbridge := State.erasingBlock_bridge (modelled_of_reference hk)
  rw [State.sample_reference (by rw [hbridge]; exact hk) (by rw [hbridge]; exact hscript), hbridge]
  rfl

/-- On the reference bridge the first sample after the command ends the block (R204). -/
theorem run_block (h : At .erCmd s) (hk : s.bridge.kind = .reference) (hscript : s.bridge.script = []) :
    core.run 2 s = .next s.blockErased := by
  have hm := modelled_of_reference hk
  have hb : s.busAnswers = true := busAnswers_iff.2 (Bridge.modelled_iff.1 hm).2
  have hbridge := State.erasingBlock_bridge hm
  obtain ⟨-, hr, hp⟩ := id h
  have hat : At .erBusy s.erasingBlock := ⟨rfl, hr, by rw [hbridge]; exact hp⟩
  have hanswers : s.erasingBlock.busAnswers = true := by
    rw [State.busAnswers, hbridge]
    exact hb
  have hidle : stBusy s.erasingBlock.sample = false := by rw [State.erasingBlock_sample hk hscript, stBusy_statusWord]
  rw [core_run_succ 1 (step_erase h hb), core_run_succ 0 (step_erBusy_done hat hanswers hidle), core_run_zero,
    State.blockErased]

/-! ### What a block leaves behind -/

theorem accesses_blockErased (s : State) : accesses s.blockErased = accesses s + 2 := by
  have htrace : accesses s.blockErased = accesses s.erasingBlock.sampled.timed :=
    congrArg (List.countP BusEvent.isAccess) (State.blockDone_move _).trace
  rw [htrace, accesses_timed, accesses_sampled, State.erasingBlock, accesses_startWait, accesses_delivered]

theorem State.blockErased_bridge (hm : s.bridge.modelled = true) :
    s.blockErased.bridge =
      { s.bridge.takeErase (s.blockAddress.setWidth 21) with script := s.bridge.script.tail } := by
  rw [State.blockErased, (State.blockDone_move _).bridge, State.timed_bridge, State.sampled_bridge,
    State.erasingBlock_bridge hm]
  rfl

/-- The sector of the block `r.k`, modulo the flash's 32 sectors (R203, R61). -/
theorem State.blockAddress_sector (s : State) :
    (s.blockAddress.setWidth 21).toNat / 65536 = (s.addr.toNat / 65536 + s.k.toNat) % 32 := by
  simp only [State.blockAddress, BitVec.toNat_setWidth, BitVec.toNat_add, BitVec.toNat_mul, BitVec.toNat_ofNat]
  omega

theorem State.read_blockErased (hm : s.bridge.modelled = true) (x : Nat) :
    s.blockErased.bridge.flash.read x =
      if x / 65536 = (s.addr.toNat / 65536 + s.k.toNat) % 32 then Config.erasedByte else s.bridge.flash.read x := by
  rw [State.blockErased_bridge hm, ← State.blockAddress_sector]
  exact Memory.read_eraseSector _ _ _

/-- The reference bridge's samples set no diagnostic flag. -/
theorem State.erasingBlock_diag (hk : s.bridge.kind = .reference) (hscript : s.bridge.script = []) :
    s.erasingBlock.sampled.timed.diagIe = s.diagIe ∧ s.erasingBlock.sampled.timed.diagIw = s.diagIw := by
  constructor
  · rw [State.timed_diagIe, State.sampled_diagIe, State.erasingBlock_sample hk hscript, stIllegalErase_statusWord,
      Bool.or_false]
    rfl
  · rw [State.timed_diagIw, State.sampled_diagIw, State.erasingBlock_sample hk hscript, stIllegalWrite_statusWord,
      Bool.or_false]
    rfl

theorem State.blockErased_more (h : s.k.toNat + 1 < s.nblk.toNat) :
    s.blockErased = { s.erasingBlock.sampled.timed with k := s.k + 1#32, seq := Seq.erCmd.code } := if_pos h

theorem State.blockErased_last (hkind : s.kind = kindErase) (h : ¬ s.k.toNat + 1 < s.nblk.toNat) :
    s.blockErased = State.respondOk [] { s.erasingBlock.sampled.timed with k := s.k + 1#32 } :=
  (if_neg h).trans (if_neg fun hw => absurd (hkind.symm.trans hw.1) (by decide))

/-! ### All blocks -/

/-- An ERASE request has ended with OK, `n` blocks after the state `s` (R204). -/
structure BlocksErased (n : Nat) (s t : State) : Prop where
  seq : t.seq = Seq.respond.code
  rsp : t.rsp = some { code := .ok, info := .empty, data := [], diagIe := s.diagIe, diagIw := s.diagIw }
  accesses : accesses t = accesses s + 2 * n
  flash (x : Nat) : t.bridge.flash.read x =
    if ∃ j < n, x / 65536 = (s.addr.toNat / 65536 + (s.k.toNat + j)) % 32 then Config.erasedByte else s.bridge.flash.read x

theorem BlocksErased.last (hk : s.bridge.kind = .reference) (hscript : s.bridge.script = []) (hkind : s.kind = kindErase)
    (hlast : ¬ s.k.toNat + 1 < s.nblk.toNat) : BlocksErased 1 s s.blockErased where
  seq := by rw [State.blockErased_last hkind hlast]; rfl
  rsp := by
    obtain ⟨hie, hiw⟩ := State.erasingBlock_diag hk hscript
    rw [State.blockErased_last hkind hlast, ← hie, ← hiw]
    rfl
  accesses := accesses_blockErased s
  flash x := by simpa using State.read_blockErased (modelled_of_reference hk) x

/-- One block more in front. -/
theorem BlocksErased.cons {n : Nat} {t : State} (hk : s.bridge.kind = .reference) (hscript : s.bridge.script = [])
    (hmore : s.k.toNat + 1 < s.nblk.toNat) (h : BlocksErased n s.blockErased t) : BlocksErased (n + 1) s t := by
  have hnext : s.blockErased.k.toNat = s.k.toNat + 1 := by
    rw [State.blockErased_more hmore]
    show (s.k + 1#32).toNat = _
    bv_omega
  have haddr : s.blockErased.addr = s.addr := by rw [State.blockErased_more hmore]; rfl
  obtain ⟨hie, hiw⟩ := State.erasingBlock_diag hk hscript
  refine ⟨h.seq, ?_, ?_, fun x => ?_⟩
  · rw [h.rsp, State.blockErased_more hmore, ← hie, ← hiw]
  · rw [h.accesses, accesses_blockErased]
    omega
  · rw [h.flash, State.read_blockErased (modelled_of_reference hk), haddr, hnext, ← ite_or]
    simp only [Nat.exists_lt_succ_left, Nat.add_zero, Nat.add_assoc, Nat.add_comm 1, or_comm]

/-- From the command of a block with `n` more after it, two steps a block end the request. -/
theorem run_blocks : ∀ (n : Nat) {s : State}, At .erCmd s → s.bridge.kind = .reference → s.bridge.script = [] →
    s.kind = kindErase → s.k.toNat + (n + 1) = s.nblk.toNat →
    ∃ t, core.run (2 * (n + 1)) s = .next t ∧ BlocksErased (n + 1) s t
  | 0, s, h, hk, hscript, hkind, hn => ⟨_, run_block h hk hscript, .last hk hscript hkind (by omega)⟩
  | n + 1, s, h, hk, hscript, hkind, hn => by
    have hmore : s.k.toNat + 1 < s.nblk.toNat := by omega
    have hbridge := State.blockErased_bridge (modelled_of_reference hk)
    have hblock := State.blockErased_more hmore
    have hrun := run_block h hk hscript
    obtain ⟨-, hr, hp⟩ := h
    have hat : At .erCmd s.blockErased :=
      ⟨by rw [hblock], by rw [hblock]; exact hr, by rw [hbridge]; exact hp⟩
    have hcount : s.blockErased.k.toNat + (n + 1) = s.blockErased.nblk.toNat := by
      rw [hblock]
      show (s.k + 1#32).toNat + (n + 1) = s.nblk.toNat
      bv_omega
    obtain ⟨t, ht, herased⟩ := run_blocks n hat (by rw [hbridge]; exact hk) (by rw [hbridge, hscript]; rfl)
      (by rw [hblock]; exact hkind) hcount
    refine ⟨t, ?_, herased.cons hk hscript hmore⟩
    rw [show 2 * (n + 1 + 1) = 2 + 2 * (n + 1) by omega, core_run_add _ _ hrun, ht]

/-! ### Acceptance (R202) -/

theorem nblkOf_toNat (len : Word) : (nblkOf len).toNat = (len.toNat + 65535) / 65536 := by
  simp only [nblkOf, BitVec.toNat_ofNat]
  omega

theorem State.startErase_of_empty (ha : sectorAligned s.addr = true) (hn : nblkOf s.len = 0#32) :
    s.startErase = State.respondOk [] { s with nblk := nblkOf s.len, k := 0#32 } :=
  (if_pos ha).trans (if_pos hn)

theorem State.startErase_of_blocks (ha : sectorAligned s.addr = true) (hn : nblkOf s.len ≠ 0#32) :
    s.startErase = { s with nblk := nblkOf s.len, k := 0#32, seq := Seq.erCmd.code } :=
  (if_pos ha).trans (if_neg hn)

/-- The state with the operands of an ERASE request latched (R38). -/
def State.latchedErase (addr size : Word) (s : State) : State :=
  s.unported.latchOperands
    { kind := kindErase, addr := some addr, len := some size, rev := none, tmo := none, wdata := none }

theorem step_eraseRequest {addr size : Word} (h : At .idle s)
    (hport : s.host.port = some { emptyReq 2#3 with addr := addr, len := size }) :
    step s = .next (s.latchedErase addr size).startErase := by
  obtain ⟨hq, hr, -⟩ := id h
  rw [step_of_fetch hr (State.fetch_port h hport)]
  exact State.accept_idle (s := s.unported) State.startErase hq rfl

end

/-- Settles O51: acceptance computes the number of blocks, and each of them erases its sector in two steps. -/
theorem eraseOnTheReferenceBridge : Obligations.EraseOnTheReferenceBridge := by
  intro addr size s h hport hk hscript halign n
  have hstep := step_eraseRequest h hport
  have hn : (nblkOf size).toNat = n := nblkOf_toNat size
  have ha : sectorAligned (s.latchedErase addr size).addr = true := sectorAligned_iff.2 halign
  obtain ⟨-, hr, hp⟩ := h
  rw [Nat.add_comm 1]
  cases hcount : n with
  | zero =>
    have hempty : nblkOf size = 0#32 := BitVec.eq_of_toNat_eq (hn.trans hcount)
    rw [State.startErase_of_empty ha hempty] at hstep
    exact ⟨_, core_run_succ 0 hstep, rfl, rfl, rfl, fun x _ => (if_neg (by simp)).symm⟩
  | succ m =>
    have hblocks : nblkOf size ≠ 0#32 := fun e => by rw [e, hcount] at hn; exact nomatch hn
    rw [State.startErase_of_blocks ha hblocks] at hstep
    obtain ⟨t, hrun, herased⟩ := run_blocks m (s := { s.latchedErase addr size with
        nblk := nblkOf size, k := 0#32, seq := Seq.erCmd.code }) ⟨rfl, hr, hp⟩ hk hscript rfl
      ((Nat.zero_add _).trans (hn.trans hcount).symm)
    refine ⟨t, (core_run_succ _ hstep).trans hrun, herased.seq, herased.rsp, herased.accesses, fun x _ => ?_⟩
    simpa [State.latchedErase, State.unported, Config.erasedByte] using herased.flash x

end Sys2Proof.Machine

/-! Reads under the bridge contract (R135, R180 to R184): what a sample and a reading of the time base do to a contract whose
outstanding operation names no flash bytes, and then the four reading states, one lemma each. -/

namespace Sys2Proof.Safety

open Sys2Proof.Machine

section

variable {s t : State} {c c' : Contract} {es : List BusEvent} {v : Word} {a x : Nat}

/-! ### Events and contracts -/

/-- The events of a step are determined by its two records. -/
theorem Added.unique {es' : List BusEvent} (h : Added s t es) (h' : Added s t es') : es = es' :=
  List.append_cancel_right (h.symm.trans h')

theorem Contract.byteAt_congr (hf : c'.flash = c.flash) (he : c'.erasedByte = c.erasedByte) : c'.byteAt = c.byteAt := by
  funext x
  simp only [Contract.byteAt, hf, he]

/-- An event and the reading of the time base that follows it (R34). -/
theorem Contract.afterAll_pair {e : BusEvent} (h : c.after e = some c') : c.afterAll [e, .time x] = some (c'.timed x) := by
  simp [Contract.afterAll, h]

/-- After a sample the contract allows, its toggle is the one last shown. -/
theorem Contract.sampled_toggle (h : c.Allows (.regRead a v)) : (c.sampled v).toggle = stToggle v := by
  obtain ⟨htoggle, -, -⟩ := h
  unfold Contract.sampled
  cases hop : c.op with
  | none | busy => rw [hop] at htoggle; exact htoggle.symm
  | read =>
    simp only
    split_ifs with hflip
    · exact hflip.symm
    all_goals rfl

/-- A sample without a flip leaves an outstanding READ outstanding (R183). -/
theorem Contract.sampled_of_no_flip {f : FlashAddr} (hop : c.op = .read f) (hv : stToggle v = c.toggle) :
    c.sampled v = { c with busy := stBusy v } := by
  simp only [Contract.sampled, hop, hv, if_true]

/-- The flip ends the READ, and leaves its busy time at most outstanding (R183). -/
theorem Contract.sampled_op_of_flip {f : FlashAddr} (hop : c.op = .read f) (hv : stToggle v ≠ c.toggle) :
    (c.sampled v).op = if stBusy v then .busy Config.tReadBusyMs none none else .none := by
  simp only [Contract.sampled, hop, if_neg hv]

/-- With no READ outstanding, a sample that is not busy ends whatever is (R184). -/
theorem Contract.sampled_op_of_not_busy (hop : ∀ f, c.op ≠ .read f) (hv : stBusy v = false) :
    (c.sampled v).op = .none := by
  cases h : c.op with
  | none => simp only [Contract.sampled, h]
  | read f => exact absurd h (hop f)
  | busy => simp [Contract.sampled, h, hv]

/-- With no READ outstanding, a busy sample leaves what is outstanding (R184). -/
theorem Contract.sampled_op_of_busy (hop : ∀ f, c.op ≠ .read f) (hv : stBusy v = true) : (c.sampled v).op = c.op := by
  cases h : c.op with
  | none => simp only [Contract.sampled, h]
  | read f => exact absurd h (hop f)
  | busy => simp [Contract.sampled, h, hv]

theorem Contract.sampled_toggle_of_not_read (hop : ∀ f, c.op ≠ .read f) : (c.sampled v).toggle = c.toggle := by
  unfold Contract.sampled
  cases h : c.op with
  | read f => exact absurd h (hop f)
  | none | busy => rfl

/-- The outstanding operation changes no flash byte: nothing, a READ, or the busy time of one. -/
def Outstanding.KeepsFlash (op : Outstanding) : Prop := ∀ limitMs since span, op = .busy limitMs since span → span = .none

/-- What may be outstanding while the block waits for the end of a READ (R184). -/
def Outstanding.ReadBusy (op : Outstanding) : Prop := op = .none ∨ ∃ since, op = .busy Config.tReadBusyMs since .none

theorem Outstanding.ReadBusy.keepsFlash {op : Outstanding} (h : op.ReadBusy) : op.KeepsFlash := by
  rintro _ _ _ rfl
  obtain h | ⟨_, h⟩ := h <;> cases h
  rfl

theorem Outstanding.ReadBusy.ne_read {op : Outstanding} (h : op.ReadBusy) (f : FlashAddr) : op ≠ .read f := by
  rintro rfl
  obtain h | ⟨_, h⟩ := h <;> cases h

theorem Outstanding.keepsFlash_none : Outstanding.none.KeepsFlash := nofun

theorem Outstanding.keepsFlash_read (f : FlashAddr) : (Outstanding.read f).KeepsFlash := nofun

theorem Contract.timed_flash_of_keepsFlash (h : c.op.KeepsFlash) (x : Nat) : (c.timed x).flash = c.flash := by
  unfold Contract.timed
  split
  case h_2 limitMs since span hop =>
    cases h _ _ _ hop
    simp
  all_goals rfl

theorem Contract.timed_op_of_none (h : c.op = .none) (x : Nat) : (c.timed x).op = .none := by
  simp only [Contract.timed, h]

theorem Contract.timed_op_of_read {f : FlashAddr} (h : c.op = .read f) (x : Nat) : (c.timed x).op = .read f := by
  simp only [Contract.timed, h]

theorem Contract.timed_readBusy (h : c.op.ReadBusy) (x : Nat) : (c.timed x).op.ReadBusy := by
  obtain e | ⟨_, _, e, e'⟩ := c.timed_op x
  · exact e ▸ h
  · obtain h | ⟨_, h⟩ := h <;> rw [h] at e <;> cases e
    exact .inr ⟨_, e'⟩

/-! ### The bytes read (R180) -/

theorem ReadsTrue.of_byteAt {addr : Word} {rev : Bool} {n : Nat} {data : List Byte} (h : ReadsTrue c addr rev n data)
    (hb : c'.byteAt = c.byteAt) : ReadsTrue c' addr rev n data := by
  unfold ReadsTrue
  rwa [hb]

/-- One more byte, true where the contract promises one. -/
theorem ReadsTrue.snoc {addr i : Word} {rev : Bool} {data : List Byte} {b : Byte} (h : ReadsTrue c addr rev i.toNat data)
    (hb : ∀ b', c.byteAt ((addr + i).setWidth 21).toNat = some b' → b = b') :
    ReadsTrue c addr rev (i.toNat + 1) (data ++ [romIf rev b]) := by
  obtain ⟨hlen, hdata⟩ := h
  refine ⟨by simp [hlen], fun j hj b' hb' => ?_⟩
  by_cases hlast : j = i.toNat
  · subst hlast
    rw [BitVec.ofNat_toNat, BitVec.setWidth_eq] at hb'
    rw [List.getElem?_append_right (Nat.le_of_eq hlen), hlen, Nat.sub_self, hb b' hb']
    rfl
  · rw [List.getElem?_append_left (by omega)]
    exact hdata j (by omega) b' hb'

/-! ### The states of a read in phase with the contract -/

theorem inPhase_rdSeed (hq : s.seq = Seq.rdSeed.code) :
    InPhase s c ↔ c.op = .none ∧ s.i = 0#32 ∧ s.rdata = [] ∧ 0 < s.len.toNat := by
  simp only [InPhase, hq, Seq.ofCode_code]

theorem inPhase_rdCmd (hq : s.seq = Seq.rdCmd.code) :
    InPhase s c ↔ c.op = .none ∧ s.lastToggle = c.toggle ∧ s.i.toNat < s.len.toNat ∧ (s.i ≠ 0#32 → c.busy = false) ∧
      ReadsTrue c s.addr s.rev s.i.toNat s.rdata := by
  simp only [InPhase, hq, Seq.ofCode_code]

theorem inPhase_rdToggle (hq : s.seq = Seq.rdToggle.code) :
    InPhase s c ↔ c.op = .read (s.readAddress.setWidth 21) ∧ s.lastToggle = c.toggle ∧ s.i.toNat < s.len.toNat ∧
      ReadsTrue c s.addr s.rev s.i.toNat s.rdata := by
  simp only [InPhase, hq, Seq.ofCode_code]

theorem inPhase_rdBusy (hq : s.seq = Seq.rdBusy.code) :
    InPhase s c ↔ c.op.ReadBusy ∧ s.lastToggle = c.toggle ∧ s.i.toNat < s.len.toNat ∧
      (∀ b, c.byteAt (s.readAddress.setWidth 21).toNat = some b → s.latched = b) ∧
      ReadsTrue c s.addr s.rev s.i.toNat s.rdata := by
  simp only [InPhase, hq, Seq.ofCode_code, Outstanding.ReadBusy]

/-- A step ends in phase with the contract its events lead to, whose flash is as before. -/
def EndsInPhase (t : State) (c : Contract) (es : List BusEvent) : Prop :=
  ∃ c', c.afterAll es.reverse = some c' ∧ InPhase t c' ∧ c'.flash = c.flash

/-- A poll leaves the contract after its sample and its reading of the time base (R152). -/
theorem EndsInPhase.poll (ht : Added s t es) (htrace : t.trace = s.sampled.timed.trace)
    (hop : (c.sampled s.sample).op.KeepsFlash)
    (h : ((c.sampled s.sample).timed s.sampled.now).byteAt = c.byteAt →
      InPhase t ((c.sampled s.sample).timed s.sampled.now)) : EndsInPhase t c es := by
  cases ht.unique (es' := [.time s.sampled.now, .regRead Config.regAddr s.sample]) htrace
  have hflash : ((c.sampled s.sample).timed s.sampled.now).flash = c.flash := by
    rw [Contract.timed_flash_of_keepsFlash hop, Contract.sampled_flash]
  exact ⟨_, rfl, h (Contract.byteAt_congr hflash (by simp)), hflash⟩

/-- The sample of a poll whose events keep the contract is one the contract allows. -/
theorem Contract.Keeps.sample_allowed (hkeep : c.Keeps es.reverse) (ht : Added s t es)
    (htrace : t.trace = s.sampled.timed.trace) : c.Allows (.regRead Config.regAddr s.sample) := by
  cases ht.unique (es' := [.time s.sampled.now, .regRead Config.regAddr s.sample]) htrace
  exact hkeep.1

/-- A Timeout promises no data. -/
theorem InPhase.of_timeout (info : Info) (data : List Byte) : InPhase (s.respond .timeout info data) c := by
  intro r hr hok
  cases hr
  cases hok

/-- One more true byte, delivered while the bridge is ready for the next READ, is in phase with it (R184). -/
theorem InPhase.byteDone (hop : c.op = .none) (hbusy : c.busy = false) (htoggle : s.lastToggle = c.toggle)
    (hi : s.i.toNat < s.len.toNat)
    (hlatched : ∀ b, c.byteAt (s.readAddress.setWidth 21).toNat = some b → s.latched = b)
    (hreads : ReadsTrue c s.addr s.rev s.i.toNat s.rdata) : InPhase s.byteDone c := by
  have hnext : (s.i + 1#32).toNat = s.i.toNat + 1 := by bv_omega
  have hmore := hreads.snoc hlatched
  unfold State.byteDone
  simp only
  split_ifs with hlast
  · exact (inPhase_rdCmd rfl).2 ⟨hop, htoggle, hnext ▸ hlast, fun _ => hbusy, hnext ▸ hmore⟩
  · intro r hr _
    cases hr
    rwa [show s.i.toNat + 1 = s.len.toNat by omega] at hmore

/-- The seed takes the toggle the contract holds (R181). -/
theorem rdSeed_endsInPhase (h : At .rdSeed s) (hphase : InPhase s c) (hx : step s = .next t) (ht : Added s t es)
    (hkeep : c.Keeps es.reverse) : EndsInPhase t c es := by
  obtain ⟨hop, hi, hdata, hlen⟩ := (inPhase_rdSeed h.1).1 hphase
  rw [step_of_at h nofun] at hx
  simp only [stepSeq, stepRdSeed] at hx
  split_ifs at hx
  cases hx
  cases ht.unique (es' := [.regRead Config.regAddr s.sample]) rfl
  have htoggle : stToggle s.sample = (c.sampled s.sample).toggle := (Contract.sampled_toggle hkeep.1).symm
  have hnone : (c.sampled s.sample).op = .none := by simp only [Contract.sampled, hop]
  refine ⟨_, rfl, (inPhase_rdCmd rfl).2 ⟨hnone, htoggle, ?_, fun hne => absurd hi hne, ?_⟩, Contract.sampled_flash _ _⟩
  · show s.i.toNat < s.len.toNat
    rwa [hi]
  · show ReadsTrue _ s.addr s.rev s.i.toNat s.rdata
    rw [hi, hdata]
    exact ⟨rfl, nofun⟩

/-- The READ command has a known effect, since nothing is outstanding and the bridge was not busy (R182, U11). -/
theorem rdCmd_endsInPhase (h : At .rdCmd s) (hphase : InPhase s c) (hfirst : s.i = 0#32 → c.busy = false)
    (hx : step s = .next t) (ht : Added s t es) : EndsInPhase t c es := by
  obtain ⟨hop, htoggle, hi, hnext, hreads⟩ := (inPhase_rdCmd h.1).1 hphase
  have hbusy : c.busy = false := (em (s.i = 0#32)).elim hfirst hnext
  rw [step_of_at h nofun] at hx
  obtain ⟨-, rfl⟩ := State.issueAndWait_eq_next (State.issue_read _ _ _) hx
  cases ht.unique (es' := [.time _, .regWrite Config.regAddr (cmd 0#3 s.readAddress 0#8)]) rfl
  have hafter : c.after (.regWrite Config.regAddr (cmd 0#3 s.readAddress 0#8)) =
      some { c with op := .read (s.readAddress.setWidth 21) } := by
    rw [Contract.after_regWrite c _ hop hbusy (emittable_cmd_read _), decodeCmd_cmd_read]
    rfl
  exact ⟨_, Contract.afterAll_pair hafter, (inPhase_rdToggle rfl).2 ⟨rfl, htoggle, hi, hreads⟩, rfl⟩

/-- The edge is the flip of the outstanding READ, and the latched byte the one it shows (R183). -/
theorem rdToggle_endsInPhase (h : At .rdToggle s) (hphase : InPhase s c) (hx : step s = .next t) (ht : Added s t es)
    (hkeep : c.Keeps es.reverse) : EndsInPhase t c es := by
  obtain ⟨hop, htoggle, hi, hreads⟩ := (inPhase_rdToggle h.1).1 hphase
  rw [step_of_at h nofun] at hx
  simp only [stepSeq, stepRdToggle] at hx
  obtain ⟨-, ⟨hc, rfl⟩ | ⟨hc, -, rfl⟩ | ⟨hc, -, rfl⟩⟩ := State.poll_eq_next hx
  · have hallow := hkeep.sample_allowed ht rfl
    have hflip : stToggle s.sample ≠ c.toggle := by simpa [htoggle] using hc
    have hread : ∀ b, c.byteAt (s.readAddress.setWidth 21).toNat = some b → stData s.sample = b := by
      obtain ⟨hshown, -, -⟩ := hallow
      rw [hop] at hshown
      exact hshown hflip
    have hbusy : (c.sampled s.sample).op.ReadBusy := by
      rw [Contract.sampled_op_of_flip hop hflip]
      split_ifs
      · exact .inr ⟨_, rfl⟩
      · exact .inl rfl
    refine .poll ht rfl hbusy.keepsFlash fun hbytes => (inPhase_rdBusy rfl).2
      ⟨Contract.timed_readBusy hbusy _, ?_, hi, hbytes ▸ hread, hreads.of_byteAt hbytes⟩
    rw [Contract.timed_toggle, Contract.sampled_toggle hallow]
    rfl
  all_goals
    have hsame := Contract.sampled_of_no_flip hop (v := s.sample) (by simpa [htoggle] using hc)
    have hread : (c.sampled s.sample).op = .read (s.readAddress.setWidth 21) := by
      rw [hsame]
      exact hop
    have hkeeps : (c.sampled s.sample).op.KeepsFlash := hread ▸ Outstanding.keepsFlash_read _
  · exact .poll ht rfl hkeeps fun _ => .of_timeout _ _
  · refine .poll ht rfl hkeeps fun hbytes => (inPhase_rdToggle h.1).2
      ⟨Contract.timed_op_of_read hread _, ?_, hi, hreads.of_byteAt hbytes⟩
    rw [Contract.timed_toggle, hsame]
    exact htoggle

/-- The end of the busy time leaves the bridge ready for the next READ, with one true byte more (R184). -/
theorem rdBusy_endsInPhase (h : At .rdBusy s) (hphase : InPhase s c) (hx : step s = .next t) (ht : Added s t es) :
    EndsInPhase t c es := by
  obtain ⟨hbusy, htoggle, hi, hlatched, hreads⟩ := (inPhase_rdBusy h.1).1 hphase
  have hsame (x : Nat) : s.lastToggle = ((c.sampled s.sample).timed x).toggle := by
    rw [Contract.timed_toggle, Contract.sampled_toggle_of_not_read hbusy.ne_read]
    exact htoggle
  rw [step_of_at h nofun] at hx
  simp only [stepSeq, stepRdBusy] at hx
  obtain ⟨-, ⟨hc, rfl⟩ | ⟨hc, -, rfl⟩ | ⟨hc, -, rfl⟩⟩ := State.poll_eq_next hx
  · have hidle : stBusy s.sample = false := by simpa using hc
    have hnone := Contract.sampled_op_of_not_busy hbusy.ne_read hidle
    refine .poll ht (State.byteDone_move _).trace (hnone ▸ Outstanding.keepsFlash_none) fun hbytes => ?_
    exact .byteDone (Contract.timed_op_of_none hnone _) (by simpa using hidle) (hsame _) hi (hbytes ▸ hlatched)
      (hreads.of_byteAt hbytes)
  all_goals
    have hstill := Contract.sampled_op_of_busy hbusy.ne_read (v := s.sample) (by simpa using hc)
  · exact .poll ht rfl (hstill ▸ hbusy.keepsFlash) fun _ => .of_timeout _ _
  · refine .poll ht rfl (hstill ▸ hbusy.keepsFlash) fun hbytes => (inPhase_rdBusy h.1).2
      ⟨Contract.timed_readBusy (hstill ▸ hbusy) _, hsame _, hi, hbytes ▸ hlatched, hreads.of_byteAt hbytes⟩

end

/-- Settles O48: each reading state ends in phase; the contract's premise allows the step's sample. -/
theorem contractBridgeReadsAreTrue : Obligations.ContractBridgeReadsAreTrue := by
  intro q s t c es hq h hphase hfirst hx ht hkeep
  simp only [List.mem_cons, List.not_mem_nil, or_false] at hq
  obtain rfl | rfl | rfl | rfl := hq
  · exact rdSeed_endsInPhase h hphase hx ht hkeep
  · exact rdCmd_endsInPhase h hphase (hfirst rfl) hx ht
  · exact rdToggle_endsInPhase h hphase hx ht hkeep
  · exact rdBusy_endsInPhase h hphase hx ht

end Sys2Proof.Safety

/-! The reference bridge and the bridge contract (R135, R140 to R142): the mirror relation is kept by a sample and by each command
the block emits, and the block and the contract stay at the same point of a request in each case of a step. -/

namespace Sys2Proof.Safety

open Sys2Proof.Machine

section

variable {s t : State} {b : Bridge} {c c' : Contract} {a : FlashAddr}

/-! ### Events that keep the contract -/

/-- The events, oldest first, keep the contract and lead to another that still promises something. -/
def Contract.Follows (c : Contract) (es : List BusEvent) (c' : Contract) : Prop := c.Keeps es ∧ c.afterAll es = some c'

theorem Contract.Follows.nil : c.Follows [] c := ⟨trivial, rfl⟩

theorem Contract.Follows.cons {e : BusEvent} {es : List BusEvent} {c₁ : Contract} (ha : c.Allows e) (h : c.after e = some c₁)
    (hs : c₁.Follows es c') : c.Follows (e :: es) c' := by
  obtain ⟨hkeeps, hafter⟩ := hs
  refine ⟨⟨ha, fun c₂ h₂ => ?_⟩, ?_⟩
  · cases h.symm.trans h₂
    exact hkeeps
  · rw [Contract.afterAll, h, Option.bind_some, hafter]

theorem Contract.Follows.time (c : Contract) (x : Nat) : c.Follows [.time x] (c.timed x) := .cons trivial rfl .nil

/-! ### The mirror relation -/

theorem Mirrors.tog_eq (h : Mirrors b c) (hop : ∀ f, c.op ≠ .read f) : b.tog = c.toggle := by
  obtain ⟨-, -, -, -, -, hlast⟩ := h
  cases hc : c.op with
  | read f => exact absurd hc (hop f)
  | none | busy =>
    rw [hc] at hlast
    exact hlast.1

theorem Mirrors.not_busy (h : Mirrors b c) : c.busy = false := by
  obtain ⟨-, -, -, -, hbusy, -⟩ := h
  exact hbusy

theorem Mirrors.timed (h : Mirrors b c) (x : Nat) : Mirrors b (c.timed x) := by
  obtain ⟨hwf, herased, hbytes, hpbuf, hbusy, hlast⟩ := h
  refine ⟨hwf, by simpa using herased, fun y v hv => hbytes y v ?_, by simpa using hpbuf, by simpa using hbusy, ?_⟩
  · rw [Contract.byteAt_eq_some, Contract.timed_erasedByte] at hv
    rw [Contract.byteAt_eq_some]
    obtain e | e := c.timed_flash x y
    · rwa [e] at hv
    · rw [e] at hv
      simp at hv
  · rw [Contract.timed_toggle, Contract.timed_shown]
    obtain e | ⟨_, _, e, e'⟩ := c.timed_op x
    · rwa [e]
    · rw [e] at hlast
      rw [e']
      exact hlast

/-- What the reference bridge shows is allowed: the byte of the outstanding READ with its flip, and else what it showed last. -/
theorem Mirrors.allows (h : Mirrors b c) (r : Nat) : c.Allows (.regRead r (statusWord b.tog false b.dat)) := by
  obtain ⟨-, -, hbytes, -, -, hlast⟩ := h
  simp only [Contract.Allows, stToggle_statusWord, stBusy_statusWord, stData_statusWord]
  cases hop : c.op with
  | read f =>
    rw [hop] at hlast
    obtain ⟨htog, hdat⟩ := hlast
    exact ⟨fun _ v hv => hdat.trans (hbytes _ v hv), fun he => absurd (htog.symm.trans he) (by simp), trivial⟩
  | none =>
    rw [hop] at hlast
    exact ⟨hlast.1, fun _ => hlast.2, trivial⟩
  | busy limitMs since =>
    rw [hop] at hlast
    refine ⟨hlast.1, fun _ => hlast.2, ?_⟩
    cases since
    · trivial
    · exact nofun

/-- What the reference bridge shows ends whatever was outstanding (R140, R141). -/
theorem Mirrors.sampled_eq (h : Mirrors b c) : ∃ shown,
    c.sampled (statusWord b.tog false b.dat) = { c with toggle := b.tog, shown := shown, busy := false, op := .none } ∧
      ∀ v, shown = some v → b.dat = v := by
  obtain ⟨-, -, -, -, -, hlast⟩ := h
  cases hop : c.op with
  | read f =>
    rw [hop] at hlast
    obtain ⟨htog, hdat⟩ := hlast
    exact ⟨some b.dat, by simp [Contract.sampled, hop, htog], fun _ => Option.some.inj⟩
  | none | busy =>
    rw [hop] at hlast
    obtain ⟨htog, hdat⟩ := hlast
    exact ⟨c.shown, by simp [Contract.sampled, hop, htog], hdat⟩

theorem Mirrors.sampled (h : Mirrors b c) : Mirrors b (c.sampled (statusWord b.tog false b.dat)) := by
  obtain ⟨shown, e, hshown⟩ := h.sampled_eq
  obtain ⟨hwf, herased, hbytes, hpbuf, -, -⟩ := h
  rw [e]
  exact ⟨hwf, herased, hbytes, hpbuf, rfl, rfl, hshown⟩

/-! ### The commands the block emits (R142) -/

theorem Mirrors.takeRead (h : Mirrors b c) (hop : c.op = .none) (hk : b.kind = .reference) :
    Mirrors (b.takeRead a) { c with op := .read a } := by
  have htog := h.tog_eq (by rw [hop]; nofun)
  obtain ⟨hwf, herased, hbytes, hpbuf, hbusy, -⟩ := h
  rw [Bridge.takeRead_of_flips (by rw [hk]; decide), htog]
  exact ⟨hwf, herased, hbytes, hpbuf, hbusy, rfl, rfl⟩

theorem Mirrors.takeErase (h : Mirrors b c) (hop : c.op = .none) (limitMs : Nat) (since : Option Nat)
    (span : Option (Nat × Nat)) :
    Mirrors (b.takeErase a) { c with
      flash := fun x => if x / Config.sectorBytes = a.toNat / Config.sectorBytes then .erased else c.flash x
      op := .busy limitMs since span } := by
  obtain ⟨hwf, herased, hbytes, hpbuf, hbusy, hlast⟩ := h
  rw [hop] at hlast
  refine ⟨Memory.eraseSector_wf _ hwf, herased, fun x v hv => ?_, hpbuf, hbusy, hlast⟩
  rw [Bridge.takeErase, Memory.read_eraseSector]
  rw [Contract.byteAt_eq_some] at hv
  simp only at hv
  split_ifs at hv ⊢ with hx
  · obtain ⟨-, hv⟩ | hv := hv
    · exact herased.symm.trans hv
    · exact nomatch hv
  · exact hbytes x v (Contract.byteAt_eq_some.2 hv)

theorem Mirrors.takeLoad (h : Mirrors b c) (d : Byte) :
    Mirrors (b.takeLoad d) { c with loads := c.loads ++ [d] } := by
  obtain ⟨hwf, herased, hbytes, hpbuf, hbusy, hlast⟩ := h
  exact ⟨hwf, herased, hbytes, congrArg (· ++ [d]) hpbuf, hbusy, hlast⟩

/-- Across a page boundary a commit promises no byte it could have changed (R69, U9). -/
theorem commitFlash_of_crosses {flash : Nat → FlashByte} {a x : Nat} {bytes : List Byte} (h : ¬ FitsPage a bytes.length) :
    commitFlash flash a bytes x = .unspecified ∨ commitFlash flash a bytes x = flash x := by
  unfold commitFlash
  rw [if_neg h]
  split_ifs
  · exact .inl rfl
  · exact .inr rfl

/-- A byte a commit promises is one the reference bridge holds after it (R142). -/
theorem Mirrors.read_takeCommit (h : Mirrors b c) (hl : c.loads.length ≤ Config.pageBytes) {x : Nat} {v : Byte}
    (hv : Contract.byteAt { c with flash := commitFlash c.flash a.toNat c.loads } x = some v) :
    (b.takeCommit a).flash.read x = v := by
  obtain ⟨hwf, herased, hbytes, hpbuf, -, -⟩ := h
  have ha : a.toNat < Config.flashBytes := a.isLt
  have hother (hp : c.byteAt x = some v) (hx : ∀ j < c.loads.length, x ≠ (a.toNat + j) % Config.flashBytes) :
      (b.takeCommit a).flash.read x = v := by
    rw [Bridge.read_takeCommit_other (hpbuf ▸ hx), hbytes x v hp]
  obtain ⟨he, hev⟩ | hh := Contract.byteAt_eq_some.1 hv
  · obtain ⟨hf, hx⟩ := commitFlash_eq_erased ha hl he
    exact hother (Contract.byteAt_eq_some.2 (.inl ⟨hf, hev⟩)) hx
  · obtain ⟨j, hj, hx, hf⟩ | ⟨hf, hx⟩ := commitFlash_eq_holds ha hl hh
    · by_cases hfits : FitsPage a.toNat c.loads.length
      · obtain ⟨hlt, hv⟩ := List.getElem?_eq_some_iff.1 hj
        rw [Bridge.takeCommit_of_fitsPage (hpbuf ▸ hfits), hpbuf, hx,
          Memory.read_program_same _ _ _ hwf (Nat.le_trans hl (by decide)) hlt, hv]
      · obtain e | e := commitFlash_of_crosses (flash := c.flash) (x := x) hfits
        · exact nomatch e.symm.trans hh
        · exact nomatch (e.trans hf).symm.trans hh
    · exact hother (Contract.byteAt_eq_some.2 (.inr hf)) hx

theorem Mirrors.takeCommit (h : Mirrors b c) (hop : c.op = .none) (hl : c.loads.length ≤ Config.pageBytes) (limitMs : Nat)
    (since : Option Nat) (span : Option (Nat × Nat)) :
    Mirrors (b.takeCommit a) { c with
      flash := commitFlash c.flash a.toNat c.loads, loads := [], op := .busy limitMs since span } := by
  have hread := fun x v => h.read_takeCommit (a := a) hl (x := x) (v := v)
  obtain ⟨hwf, herased, -, -, hbusy, hlast⟩ := h
  rw [hop] at hlast
  refine ⟨Bridge.takeCommit_flash_wf hwf, herased, hread, ?_⟩
  rw [Bridge.takeCommit_frame]
  exact ⟨rfl, hbusy, hlast⟩

/-! ### The block and the contract at the same point of a request -/

/-- The block is where it can be in step with a contract that has nothing outstanding and nothing loaded. -/
def AtRest (t : State) : Prop :=
  ∃ q : Seq, t.seq = q.code ∧ q ≠ .rdToggle ∧ q ≠ .ppCommit ∧ (q = .ppLoad → t.j = 0#9)

theorem InStep.of_atRest (h : AtRest t) (htog : t.toggleSeeded = true → t.lastToggle = c.toggle) (hop : c.op = .none)
    (hl : c.loads = []) : InStep t c := by
  obtain ⟨q, hq, htoggle, hcommit, hload⟩ := h
  refine ⟨htog, ?_⟩
  rw [hq, Seq.ofCode_code]
  cases q with
  | rdToggle => exact absurd rfl htoggle
  | ppCommit => exact absurd rfl hcommit
  | ppLoad => exact ⟨hop, by rw [hl, hload rfl]; rfl⟩
  | rdBusy | erBusy | ppBusy => exact ⟨fun f => hop ▸ nofun, hl⟩
  | idle | awPoll | rdSeed | rdCmd | erCmd | respond => exact ⟨hop, hl⟩

/-- Outside the waits nothing is outstanding. -/
theorem InStep.op_none {q : Seq} (h : InStep s c) (hq : s.seq = q.code)
    (hne : q ∉ [Seq.rdToggle, .rdBusy, .erBusy, .ppBusy]) : c.op = .none := by
  obtain ⟨-, h⟩ := h
  rw [hq, Seq.ofCode_code] at h
  cases q with
  | rdToggle | rdBusy | erBusy | ppBusy => exact absurd (by decide) hne
  | idle | awPoll | rdSeed | rdCmd | erCmd | ppLoad | ppCommit | respond => exact h.1

theorem InStep.not_reading {q : Seq} (h : InStep s c) (hq : s.seq = q.code) (hne : q ≠ .rdToggle) (f : FlashAddr) :
    c.op ≠ .read f := by
  obtain ⟨-, h⟩ := h
  rw [hq, Seq.ofCode_code] at h
  cases q with
  | rdToggle => exact absurd rfl hne
  | rdBusy | erBusy | ppBusy => exact h.1 f
  | idle | awPoll | rdSeed | rdCmd | erCmd | ppLoad | ppCommit | respond => exact h.1 ▸ nofun

/-- Outside a page nothing is loaded. -/
theorem InStep.loads_nil {q : Seq} (h : InStep s c) (hq : s.seq = q.code) (hne : q ∉ [Seq.ppLoad, .ppCommit]) :
    c.loads = [] := by
  obtain ⟨-, h⟩ := h
  rw [hq, Seq.ofCode_code] at h
  cases q with
  | ppLoad | ppCommit => exact absurd (by decide) hne
  | idle | awPoll | rdSeed | rdCmd | rdToggle | rdBusy | erCmd | erBusy | ppBusy | respond => exact h.2

theorem InStep.loads_ppLoad (h : InStep s c) (hq : s.seq = Seq.ppLoad.code) : c.loads.length = s.j.toNat := by
  obtain ⟨-, h⟩ := h
  rw [hq, Seq.ofCode_code] at h
  exact h.2

theorem InStep.loads_ppCommit (h : InStep s c) (hq : s.seq = Seq.ppCommit.code) : c.loads.length = s.plen.toNat := by
  obtain ⟨-, h⟩ := h
  rw [hq, Seq.ofCode_code] at h
  exact h.2

theorem InStep.lastToggle_eq_tog {q : Seq} (h : InStep s c) (hq : s.seq = q.code) (hne : q ≠ .rdToggle)
    (hm : Mirrors b c) (hseed : s.toggleSeeded = true) : s.lastToggle = b.tog := by
  obtain ⟨htog, -⟩ := id h
  exact (htog hseed).trans (hm.tog_eq (h.not_reading hq hne)).symm

/-! ### Where the moves of the block end -/

theorem hostMove_bridge (s : State) : s.hostMove.bridge = s.bridge := by
  obtain ⟨_, e⟩ | ⟨-, -, _, e⟩ := s.hostMove_cases <;> simp [e]

/-- A move of the host leaves the stored toggle, or forgets it with a reset (R290). -/
theorem lastToggle_hostMove {x : Bool} (htog : s.toggleSeeded = true → s.lastToggle = x)
    (hs : s.hostMove.toggleSeeded = true) : s.hostMove.lastToggle = x := by
  obtain ⟨_, e⟩ | ⟨-, -, _, e⟩ := s.hostMove_cases <;> rw [e] at hs ⊢
  · exact htog hs
  · exact nomatch hs

theorem atRest_of_seq {q : Seq} (hq : t.seq = q.code) (hne : q ∉ [Seq.rdToggle, .ppLoad, .ppCommit]) : AtRest t := by
  simp only [List.mem_cons, List.not_mem_nil, or_false, not_or] at hne
  obtain ⟨htoggle, hload, hcommit⟩ := hne
  exact ⟨q, hq, htoggle, hcommit, fun e => absurd e hload⟩

theorem atRest_respond (code : RspCode) (info : Info) (data : List Byte) (s : State) :
    AtRest (s.respond code info data) := atRest_of_seq (q := .respond) rfl (by decide)

theorem atRest_startPage (off : Word) (s : State) : AtRest (s.startPage off) :=
  ⟨.ppLoad, rfl, nofun, nofun, fun _ => rfl⟩

theorem atRest_startRead (s : State) : AtRest s.startRead := by
  unfold State.startRead
  simp only
  split_ifs
  · exact atRest_respond _ _ _ _
  · exact atRest_of_seq (q := .rdCmd) rfl (by decide)
  · exact atRest_of_seq (q := .rdSeed) rfl (by decide)

theorem atRest_startErase (s : State) : AtRest s.startErase := by
  unfold State.startErase
  simp only
  split_ifs
  · exact atRest_respond _ _ _ _
  · exact atRest_of_seq (q := .erCmd) rfl (by decide)
  · exact atRest_respond _ _ _ _

theorem atRest_startProgram (s : State) : AtRest s.startProgram := by
  unfold State.startProgram
  split_ifs
  · exact atRest_respond _ _ _ _
  · exact atRest_startPage _ _

theorem atRest_startWrite (s : State) : AtRest s.startWrite := by
  unfold State.startWrite
  split_ifs
  · exact atRest_of_seq (q := .erCmd) rfl (by decide)
  · exact atRest_respond _ _ _ _
  · exact atRest_respond _ _ _ _

theorem atRest_byteDone (s : State) : AtRest s.byteDone := by
  unfold State.byteDone
  simp only
  split_ifs
  · exact atRest_of_seq (q := .rdCmd) rfl (by decide)
  · exact atRest_respond _ _ _ _

theorem atRest_blockDone (s : State) : AtRest s.blockDone := by
  unfold State.blockDone
  simp only
  split_ifs
  · exact atRest_of_seq (q := .erCmd) rfl (by decide)
  · exact atRest_startPage _ _
  · exact atRest_respond _ _ _ _

theorem atRest_pageDone (s : State) : AtRest s.pageDone := by
  unfold State.pageDone
  split_ifs
  · exact atRest_startPage _ _
  · exact atRest_respond _ _ _ _

/-- One more byte loaded, the page goes on or is ready for its commit (R208). -/
theorem InStep.loadDone (htog : s.toggleSeeded = true → s.lastToggle = c.toggle) (hop : c.op = .none)
    (hj : s.j.toNat < s.plen.toNat) (hl : c.loads.length = s.j.toNat + 1) : InStep s.loadDone c := by
  have hnext : c.loads.length = (s.j + 1#9).toNat := by bv_omega
  unfold State.loadDone
  simp only
  split_ifs with hlast
  · exact ⟨htog, hop, hlast ▸ hnext⟩
  · exact ⟨htog, hop, hnext⟩

/-! ### The step -/

/-- The step's events keep the contract, and the next state mirrors the contract they lead to and is in step with it. -/
def StaysInStep (s t : State) (c : Contract) : Prop :=
  ∃ es c', Added s t es ∧ c.Follows es.reverse c' ∧ Mirrors t.bridge c' ∧ InStep t c'

/-- A step without an event, between states that ask for nothing outstanding and nothing loaded. -/
theorem StaysInStep.quiet {q : Seq} (hm : Mirrors s.bridge c) (h : InStep s c) (hq : s.seq = q.code)
    (hq' : q = .idle ∨ q = .respond) (hrest : AtRest t) (htrace : t.trace = s.trace) (hbridge : t.bridge = s.bridge)
    (htog : t.toggleSeeded = true → t.lastToggle = c.toggle) : StaysInStep s t c := by
  refine ⟨[], c, htrace, .nil, hbridge ▸ hm, .of_atRest hrest htog (h.op_none hq ?_) (h.loads_nil hq ?_)⟩
  all_goals obtain rfl | rfl := hq' <;> decide

/-- Acceptance of every kind but AWAIT_NOT_BUSY makes no event (R38). -/
theorem StaysInStep.accepted {o : Operands} (hm : Mirrors s.bridge c) (h : InStep s c) (hq : s.seq = Seq.idle.code)
    (hmove : SeqMove (s.unported.latchOperands o) t) (hrest : AtRest t) : StaysInStep s t c := by
  obtain ⟨htog, -⟩ := id h
  obtain ⟨hlast, hseed⟩ := hmove.synchronizer
  refine .quiet (q := .idle) hm h hq (.inl rfl) hrest hmove.trace hmove.bridge ?_
  rw [hlast, hseed]
  exact htog

/-- The sample of the reference bridge is allowed and ends whatever was outstanding, and the bridge mirrors the contract
after it. -/
theorem Mirrors.sample (hm : Mirrors s.bridge c) (hk : s.bridge.kind = .reference) (hscript : s.bridge.script = []) :
    c.Allows (.regRead Config.regAddr s.sample) ∧ (c.sampled s.sample).op = .none ∧
      (c.sampled s.sample).toggle = s.bridge.tog ∧ Mirrors s.bridge (c.sampled s.sample) := by
  rw [State.sample_reference hk hscript]
  obtain ⟨shown, e, -⟩ := hm.sampled_eq
  exact ⟨hm.allows _, by rw [e], by rw [e], hm.sampled⟩

/-- A sample of the reference bridge and a reading of the time base, after which the block asks for nothing. -/
theorem StaysInStep.poll (hk : s.bridge.kind = .reference) (hscript : s.bridge.script = []) (hm : Mirrors s.bridge c)
    (hl : c.loads = []) (hrest : AtRest t) (htrace : t.trace = s.sampled.timed.trace)
    (hbridge : t.bridge = s.sampled.timed.bridge) (htog : t.toggleSeeded = true → t.lastToggle = s.bridge.tog) :
    StaysInStep s t c := by
  obtain ⟨hallow, hop, htoggle, hm'⟩ := hm.sample hk hscript
  have hfollows : c.Follows [.regRead Config.regAddr s.sample, .time s.sampled.now]
      ((c.sampled s.sample).timed s.sampled.now) := .cons hallow rfl (.time _ _)
  refine ⟨[.time s.sampled.now, .regRead Config.regAddr s.sample], _, htrace, hfollows, ?_, .of_atRest hrest ?_ ?_ ?_⟩
  · rw [hbridge]
    exact hm'.timed _
  · rwa [Contract.timed_toggle, htoggle]
  · exact Contract.timed_op_of_none hop _
  · simpa using hl

/-- The success of a wait that is not for a toggle (R152). -/
theorem StaysInStep.pollDone {q : Seq} (hk : s.bridge.kind = .reference) (hscript : s.bridge.script = [])
    (hm : Mirrors s.bridge c) (h : InStep s c) (hq : s.seq = q.code) (hne : q ∉ [Seq.rdToggle, .ppLoad, .ppCommit])
    (hmove : SeqMove s.sampled.timed t) (hrest : AtRest t) : StaysInStep s t c := by
  obtain ⟨hlast, hseed⟩ := hmove.synchronizer
  simp only [List.mem_cons, List.not_mem_nil, or_false, not_or] at hne
  obtain ⟨htoggle, hload, hcommit⟩ := hne
  refine .poll hk hscript hm (h.loads_nil hq (by simp [hload, hcommit])) hrest hmove.trace hmove.bridge fun hseeded => ?_
  exact hlast.trans (h.lastToggle_eq_tog hq htoggle hm (hseed.symm.trans hseeded))

/-- A command with an effect the contract knows, and the reading of the time base that starts its wait (R35). -/
theorem StaysInStep.command {v : Word} {react : Bridge → Bridge} {q : Seq} (hmod : s.bridge.modelled = true)
    (hop : c.op = .none) (hm : Mirrors s.bridge c) (hemit : (decodeCmd v).emittable = true)
    (hcmd : c.command (decodeCmd v) = some c') (hm' : Mirrors (react s.bridge) c')
    (h' : ∀ x, InStep ((s.delivered v react).startWait q) (c'.timed x)) :
    StaysInStep s ((s.delivered v react).startWait q) c := by
  have hbusy := hm.not_busy
  have hafter : c.after (.regWrite Config.regAddr v) = some c' := (Contract.after_regWrite c _ hop hbusy hemit).trans hcmd
  refine ⟨[.time _, .regWrite Config.regAddr v], _, rfl, .cons trivial hafter (.time _ _), ?_, h' _⟩
  rw [State.delivered_of_modelled hmod]
  exact hm'.timed _

/-- A load with room in the page buffer (R208). -/
theorem StaysInStep.load {d : Byte} (hmod : s.bridge.modelled = true) (hop : c.op = .none) (hm : Mirrors s.bridge c)
    (hroom : c.loads.length < Config.pageBytes)
    (h' : InStep (s.delivered (cmd 4#3 0#32 d) (Bridge.takeLoad d)).loadDone { c with loads := c.loads ++ [d] }) :
    StaysInStep s (s.delivered (cmd 4#3 0#32 d) (Bridge.takeLoad d)).loadDone c := by
  have hbusy := hm.not_busy
  have hafter : c.after (.regWrite Config.regAddr (cmd 4#3 0#32 d)) = some { c with loads := c.loads ++ [d] } := by
    rw [Contract.after_regWrite c _ hop hbusy (emittable_cmd_pageProgram d), decodeCmd_cmd_pageProgram]
    exact if_pos hroom
  have hmove := (s.delivered (cmd 4#3 0#32 d) (Bridge.takeLoad d)).loadDone_move
  refine ⟨[.regWrite Config.regAddr (cmd 4#3 0#32 d)], _, hmove.trace, .cons trivial hafter .nil, ?_, h'⟩
  rw [hmove.bridge, State.delivered_of_modelled hmod]
  exact hm.takeLoad d

/-- The reference bridge ends each wait at its first sample (R140). -/
theorem pollCond_of_mirrors {q : Seq} (hk : s.bridge.kind = .reference) (hscript : s.bridge.script = [])
    (hinv : Inv s) (hm : Mirrors s.bridge c) (h : InStep s c) (hq : s.seq = q.code) : pollCond s q = true := by
  have hsample := State.sample_reference hk hscript
  cases q with
  | rdToggle =>
    obtain ⟨-, hseed, -⟩ := hinv.seqInv hq
    obtain ⟨htog, hread⟩ := h
    obtain ⟨-, -, -, -, -, hlast⟩ := hm
    rw [hq, Seq.ofCode_code] at hread
    obtain ⟨⟨f, hop⟩, -⟩ := hread
    rw [hop] at hlast
    simp [pollCond, hsample, hlast.1, htog hseed]
  | _ => simp [pollCond, hsample]

/-- Every case of a step of the block on the reference bridge. -/
theorem StaysInStep.of_stepCase (hc : StepCase s t) (hk : s.bridge.kind = .reference) (hscript : s.bridge.script = [])
    (hposted : s.bridge.posted = none) (hr : s.host.resetLine = false) (hinv : Inv s) (hm : Mirrors s.bridge c)
    (h : InStep s c) : StaysInStep s t c := by
  have hmod := modelled_of_reference hk
  obtain ⟨htog, -⟩ := id h
  cases hc with
  | reset hr' => exact nomatch hr.symm.trans hr'
  | command _ _ _ _ hp => exact nomatch hposted.symm.trans hp
  | again q _ _ _ hq _ _ hc => exact nomatch hc.symm.trans (pollCond_of_mirrors hk hscript hinv hm h hq.1)
  | timeout q _ _ _ hq _ _ hc => exact nomatch hc.symm.trans (pollCond_of_mirrors hk hscript hinv hm h hq.1)
  | held => exact ⟨[], c, rfl, .nil, hm, h⟩
  | taken _ hq => exact .quiet hm h hq.1 (.inr rfl) (atRest_of_seq (q := .idle) rfl (by decide)) rfl rfl htog
  | host hq =>
    exact .quiet hm h hq.1 (.inl rfl) (atRest_of_seq (State.hostMove_seq hq.1) (by decide)) s.hostMove_trace
      (hostMove_bridge s) (lastToggle_hostMove htog)
  | await _ hq =>
    have hop := h.op_none hq.1 (by decide)
    have hl := h.loads_nil hq.1 (by decide)
    refine ⟨[.time _], _, rfl, .time c _, hm.timed _, .of_atRest (atRest_of_seq (q := .awPoll) rfl (by decide)) ?_ ?_ ?_⟩
    · rwa [Contract.timed_toggle]
    · exact Contract.timed_op_of_none hop _
    · simpa using hl
  | read _ _ _ hq => exact .accepted hm h hq.1 (State.startRead_move _) (atRest_startRead _)
  | erase _ _ hq => exact .accepted hm h hq.1 (State.startErase_move _) (atRest_startErase _)
  | program _ _ _ hq => exact .accepted hm h hq.1 (State.startProgram_move _) (atRest_startProgram _)
  | write _ _ _ _ hq => exact .accepted hm h hq.1 (State.startWrite_move _) (atRest_startWrite _)
  | awaitDone hq =>
    exact .pollDone hk hscript hm h hq.1 (by decide) (State.respond_move _ _ _ _) (atRest_respond _ _ _ _)
  | byteDone hq => exact .pollDone hk hscript hm h hq.1 (by decide) (State.byteDone_move _) (atRest_byteDone _)
  | blockDone hq => exact .pollDone hk hscript hm h hq.1 (by decide) (State.blockDone_move _) (atRest_blockDone _)
  | pageDone hq => exact .pollDone hk hscript hm h hq.1 (by decide) (State.pageDone_move _) (atRest_pageDone _)
  | edge hq =>
    refine .poll hk hscript hm (h.loads_nil hq.1 (by decide)) (atRest_of_seq (q := .rdBusy) rfl (by decide)) rfl rfl fun _ => ?_
    rw [State.edgeSeen_lastToggle, State.sample_reference hk hscript, stToggle_statusWord]
  | seed hq =>
    obtain ⟨hallow, hop, htoggle, hm'⟩ := hm.sample hk hscript
    refine ⟨[.regRead Config.regAddr s.sample], _, rfl, .cons hallow rfl .nil, hm',
      .of_atRest (atRest_of_seq (q := .rdCmd) rfl (by decide)) (fun _ => (Contract.sampled_toggle hallow).symm) hop ?_⟩
    rw [Contract.sampled_loads]
    exact h.loads_nil hq.1 (by decide)
  | readCmd hq =>
    have hop := h.op_none hq.1 (by decide)
    have hl := h.loads_nil hq.1 (by decide)
    refine .command hmod hop hm (emittable_cmd_read _) (by rw [decodeCmd_cmd_read]; rfl) (hm.takeRead hop hk) fun x => ?_
    exact ⟨htog, ⟨_, rfl⟩, hl⟩
  | eraseCmd hq =>
    have hop := h.op_none hq.1 (by decide)
    have hl := h.loads_nil hq.1 (by decide)
    have ⟨_, halign, _⟩ : Erasing s := hinv.seqInv hq.1
    refine .command hmod hop hm (emittable_cmd_sectorErase (sectorAligned_blockAddress halign))
      (by rw [decodeCmd_cmd_sectorErase]; rfl) (hm.takeErase hop _ _ _) fun x => ?_
    exact ⟨htog, nofun, hl⟩
  | commit hq =>
    have hop := h.op_none hq.1 (by decide)
    obtain ⟨hprog, -⟩ := hinv.seqInv hq.1
    obtain ⟨hpos, -⟩ := page_bounds_of_programming hprog
    obtain ⟨-, -, -, -, hplen, -⟩ := hprog
    have hl := h.loads_ppCommit hq.1
    have hne : c.loads ≠ [] := List.ne_nil_of_length_pos (hl ▸ hpos)
    refine .command hmod hop hm (emittable_cmd_write _) (by rw [decodeCmd_cmd_write]; exact if_neg hne)
      (hm.takeCommit hop (by omega) _ _ _) fun x => ?_
    exact ⟨htog, nofun, rfl⟩
  | load w hq =>
    have hop := h.op_none hq.1 (by decide)
    have hl := h.loads_ppLoad hq.1
    obtain ⟨hprog, hj⟩ := hinv.seqInv hq.1
    obtain ⟨-, -, -, -, hplen, -⟩ := hprog
    exact .load hmod hop hm (by omega) (.loadDone htog hop hj (by rw [List.length_append, hl]; rfl))

end

/-- Settles O49: every case of a step keeps the mirror and the block's place in the request. -/
theorem referenceBridgeKeepsTheContract : Obligations.ReferenceBridgeKeepsTheContract := by
  intro s t c es hk hscript hposted hr hinv hm h hx ht
  obtain ⟨es', c', ht', ⟨hkeeps, hafter⟩, hm', h'⟩ :=
    StaysInStep.of_stepCase (step_cases hx) hk hscript hposted hr hinv hm h
  cases ht.unique ht'
  exact ⟨hkeeps, c', hafter, hm', h'⟩

end Sys2Proof.Safety

/-! The time base and AWAIT_NOT_BUSY (R150 to R152): no step takes the time back, a poll is one equation, and a time base that
reaches the deadline ends the wait, by induction on the scripted readings. -/

namespace Sys2Proof.Machine

open Sys2Proof.Safety

section

variable {s t : State}

/-! ### The time base (R150) -/

theorem State.hostMove_clock (s : State) : s.hostMove.clock = s.clock := by
  obtain ⟨_, e⟩ | ⟨-, -, _, e⟩ := s.hostMove_cases <;> simp [e]

theorem SeqMove.last_le (h : SeqMove s t) : s.clock.last ≤ t.clock.last := h.clock ▸ Nat.le_refl _

theorem State.last_le_poll (s : State) : s.clock.last ≤ s.sampled.timed.clock.last := s.sampled.last_le_now

/-- A step that reads the time base ends at `now` of a state with the same last reading; every other step keeps the clock. -/
theorem StepCase.last_le (h : StepCase s t) : s.clock.last ≤ t.clock.last := by
  cases h with
  | command i v t _ _ hi hx =>
    subst hi
    obtain ⟨_, _, -, rfl, -⟩ := exec_command_eq_next hx
    exact Nat.le_refl _
  | reset | seed | held | taken => exact Nat.le_refl _
  | host => exact s.hostMove_clock ▸ Nat.le_refl _
  | await => exact State.last_le_now (s.unported.latchOperands _)
  | readCmd | eraseCmd | commit => exact State.last_le_now (s.delivered _ _)
  | again | timeout | awaitDone | edge => exact s.last_le_poll
  | read => exact (State.startRead_move (s.unported.latchOperands _)).last_le
  | erase => exact (State.startErase_move (s.unported.latchOperands _)).last_le
  | program => exact (State.startProgram_move (s.unported.latchOperands _)).last_le
  | write => exact (State.startWrite_move (s.unported.latchOperands _)).last_le
  | load => exact (State.loadDone_move (s.delivered _ _)).last_le
  | byteDone => exact Nat.le_trans s.last_le_poll (State.byteDone_move _).last_le
  | blockDone => exact Nat.le_trans s.last_le_poll (State.blockDone_move _).last_le
  | pageDone => exact Nat.le_trans s.last_le_poll (State.pageDone_move _).last_le

end

/-- Settles O43: every case of a step reads the time base forward or not at all. -/
theorem timeNeverGoesBack : Obligations.TimeNeverGoesBack := fun _ _ hx => (step_cases hx).last_le

/-! ### One poll of AW_POLL (R152, R155) -/

theorem State.leaveUnsettled_await (s : State) : s.leaveUnsettled .await = s := by
  have hbridge : s.unsettledBridge .await = s.bridge := ite_self _
  rw [State.leaveUnsettled, hbridge]

/-- Settles O27: the poll step with AW_POLL's parameters; the wait it may time out leaves no flash byte open. -/
theorem awPollStep : Obligations.AwPollStep := by
  intro s h hb
  have hanswers : s.busAnswers = true := busAnswers_iff.2 hb
  rw [step_of_at h nofun]
  simp only [stepSeq, stepAwPoll, State.poll, if_pos hanswers, State.leaveUnsettled_await, State.raiseTimeout_eq,
    State.respondOk_eq, stBusy, Bool.not_eq_true']
  split_ifs <;> rfl

/-! ### The end of AWAIT_NOT_BUSY -/

section

variable {s : State}

/-- The request has ended, and its response is there (R37). -/
def Answered (t : State) : Prop := t.seq = Seq.respond.code ∧ t.rsp.isSome = true

theorem answered_respond (code : RspCode) (info : Info) (data : List Byte) (s : State) : Answered (s.respond code info data) :=
  ⟨rfl, rfl⟩

/-- One poll ends the request, unless its time reading is before the deadline; then the wait goes on. -/
theorem step_awPoll_answers_or_waits (h : At .awPoll s) (hb : s.bridge.kind ≠ .noAnswer) :
    (∃ t, step s = .next t ∧ Answered t) ∨ step s = .next s.sampled.timed ∧ s.sampled.now - s.t0 < s.tmo.toNat := by
  rw [awPollStep s h hb]
  split_ifs with hbusy hlimit
  · exact .inl ⟨_, rfl, answered_respond ..⟩
  · exact .inl ⟨_, rfl, answered_respond ..⟩
  · exact .inr ⟨rfl, Nat.lt_of_not_le hlimit⟩

/-- Each poll uses up one scripted increment, so the last one at the latest reads a time at or past the deadline. -/
theorem run_awPoll_answers : ∀ (ds : List Nat) {s : State}, At .awPoll s → s.bridge.kind ≠ .noAnswer → s.clock.script = ds →
    ds ≠ [] → s.t0 + s.tmo.toNat ≤ s.clock.last + ds.sum → ∃ n t, n ≤ ds.length ∧ core.run n s = .next t ∧ Answered t
  | [], _, _, _, _, hne, _ => absurd rfl hne
  | d :: ds, s, h, hb, hscript, _, hreach => by
    have hnow : s.sampled.now = s.clock.last + d := State.sampled_now_of_script hscript
    rw [List.sum_cons] at hreach
    obtain ⟨t, hx, ht⟩ | ⟨hx, hearly⟩ := step_awPoll_answers_or_waits h hb
    · exact ⟨1, t, Nat.le_add_left 1 _, core_run_succ 0 hx, ht⟩
    · have hmore : ds ≠ [] := by
        rintro rfl
        rw [List.sum_nil] at hreach
        omega
      obtain ⟨n, t, hn, hrun, ht⟩ := run_awPoll_answers ds (s := s.sampled.timed) h hb (congrArg List.tail hscript) hmore
        (show s.t0 + s.tmo.toNat ≤ s.sampled.now + ds.sum by omega)
      exact ⟨n + 1, t, Nat.succ_le_succ hn, (core_run_succ n hx).trans hrun, ht⟩

end

/-- Settles O47: by induction on the scripted increments. -/
theorem awaitEndsWhenTimePassesItsDeadline : Obligations.AwaitEndsWhenTimePassesItsDeadline :=
  fun s h hb hne hreach => run_awPoll_answers s.clock.script h hb rfl hne hreach

end Sys2Proof.Machine

/-! READ_BYTES (R180 to R189): what the four reading states do in one step, and the request on the reference bridge, by
induction on how many bytes are left, each a READ command, one sample that shows the edge and one that shows busy clear. -/

namespace Sys2Proof.Machine

open Sys2Proof.Safety

section

variable {s : State}

/-! ### The four reading states -/

/-- Only a timed-out erase or commit leaves flash bytes open (U10). -/
theorem State.leaveUnsettled_eq_self {w : Wait} (s : State) (hw : w ≠ .eraseBusy ∧ w ≠ .programBusy) :
    s.leaveUnsettled w = s := by
  obtain ⟨flash, draws, hbridge, -, hsame⟩ := s.unsettledBridge_eq w
  obtain ⟨rfl, rfl⟩ := hsame (.inr hw)
  rw [State.leaveUnsettled, hbridge]

/-- A poll whose wait leaves no flash byte open, as one equation (R152). -/
theorem State.poll_of_settled {cond : Word → Bool} {limit : Nat} {w : Wait} {pos : Word}
    {success : Word → Nat → State → State} (hb : s.bridge.kind ≠ .noAnswer)
    (hw : w ≠ .eraseBusy ∧ w ≠ .programBusy) :
    s.poll cond limit w pos success = .next (
      if cond s.sample = true then success s.sample s.sampled.now s.sampled.timed
      else if limit ≤ s.sampled.now - s.t0 then
        s.sampled.timed.respond .timeout (.timeout w (s.sampled.now - s.t0) pos) []
      else s.sampled.timed) := by
  simp only [State.poll, if_pos (busAnswers_iff.2 hb), State.leaveUnsettled_eq_self _ hw, State.raiseTimeout_eq]
  split_ifs <;> rfl

/-- The state in the wait for the toggle edge of byte `r.i`, before its sample (R182). -/
def State.readIssued (s : State) : State :=
  (s.delivered (cmd 0#3 s.readAddress 0#8) (Bridge.takeRead (s.readAddress.setWidth 21))).startWait .rdToggle

theorem State.issue_readCommand (hb : s.bridge.kind ≠ .noAnswer) :
    s.issue (cmd 0#3 s.readAddress 0#8) =
      .next (s.delivered (cmd 0#3 s.readAddress 0#8) (Bridge.takeRead (s.readAddress.setWidth 21))) := by
  rw [State.issue_read, State.regWrite_of_busAnswers (busAnswers_iff.2 hb)]

theorem step_rdCmd (h : At .rdCmd s) (hb : s.bridge.kind ≠ .noAnswer) : step s = .next s.readIssued := by
  rw [step_of_at h nofun]
  simp only [stepSeq, stepRdCmd, State.issueAndWait, State.issue_readCommand hb, Result.andThen_next, State.readIssued]

end

/-- Settles O28: the seed sample is the whole step on a bridge that answers. -/
theorem rdSeedStep : Obligations.RdSeedStep := by
  intro s h hb
  rw [step_of_at h nofun]
  exact if_pos (busAnswers_iff.2 hb)

/-- Settles O30: the word written decodes to READ at the sum's low 21 bits, and the wait starts after its delivery. -/
theorem rdCmdStep : Obligations.RdCmdStep := by
  intro s h hb
  have hissue := State.issue_readCommand hb
  rw [State.issue, decodeCmd_cmd_read] at hissue
  exact ⟨_, hissue, rfl, step_rdCmd h hb⟩

/-- Settles O31: the poll step with RD_TOGGLE's parameters; its success is the edge. -/
theorem rdToggleStep : Obligations.RdToggleStep := by
  intro s h hb
  rw [step_of_at h nofun]
  simp only [stepSeq, stepRdToggle, State.poll_of_settled (w := .toggle) hb ⟨nofun, nofun⟩, bne_iff_ne]
  rfl

/-- Settles O32: the poll step with RD_BUSY's parameters; its success is the delivery of the latched byte. -/
theorem rdBusyStep : Obligations.RdBusyStep := by
  intro s h hb
  rw [step_of_at h nofun]
  simp only [stepSeq, stepRdBusy, State.poll_of_settled (w := .readBusy) hb ⟨nofun, nofun⟩, Bool.not_eq_true']
  rfl

section

variable {s : State} {m : Memory} {addr len : Word} {rev : Bool} {n : Nat}

/-! ### One byte on the reference bridge -/

/-- A sample of the reference bridge changes the record alone (R141). -/
theorem State.sampled_reference (hk : s.bridge.kind = .reference) (hscript : s.bridge.script = []) :
    s.sampled = { s with trace := s.sampled.trace } := by
  have hbridge : s.sampled.bridge = s.bridge := by
    rw [State.sampled_bridge, hscript, List.tail_nil, ← hscript]
  have hie : s.sampled.diagIe = s.diagIe := by
    rw [State.sampled_diagIe, State.sample_reference hk hscript, stIllegalErase_statusWord, Bool.or_false]
  have hiw : s.sampled.diagIw = s.diagIw := by
    rw [State.sampled_diagIw, State.sample_reference hk hscript, stIllegalWrite_statusWord, Bool.or_false]
  calc s.sampled
      = { s with
          bridge := s.sampled.bridge, diagIe := s.sampled.diagIe, diagIw := s.sampled.diagIw
          trace := s.sampled.trace } := rfl
    _ = _ := by rw [hbridge, hie, hiw]

theorem State.polled_reference (hk : s.bridge.kind = .reference) (hscript : s.bridge.script = []) :
    s.sampled.timed = { s with clock := s.sampled.timed.clock, trace := s.sampled.timed.trace } :=
  calc s.sampled.timed
      = { s.sampled with clock := s.sampled.timed.clock, trace := s.sampled.timed.trace } := rfl
    _ = _ := by rw [State.sampled_reference hk hscript]

/-- The state with byte `r.i` presented by the bridge and latched, busy seen clear, and the given times and record (R183). -/
def State.byteArrived (t0 : Nat) (clock : Clock) (trace : List BusEvent) (s : State) : State :=
  { s with
    seq := Seq.rdBusy.code, bridge := s.bridge.takeRead (s.readAddress.setWidth 21), lastToggle := !s.bridge.tog
    latched := s.bridge.flash.read (s.readAddress.setWidth 21).toNat, t0 := t0, clock := clock, trace := trace }

/-- The block is about to read byte `n` of a READ_BYTES request on the reference bridge with flash contents `m`: the stored
toggle is the bridge's, no flag is set, and the bytes before are delivered (R182, R184). -/
structure AtByte (m : Memory) (addr len : Word) (rev : Bool) (n : Nat) (s : State) : Prop where
  at_rdCmd : At .rdCmd s
  addr_eq : s.addr = addr
  len_eq : s.len = len
  rev_eq : s.rev = rev
  i_eq : s.i = BitVec.ofNat 32 n
  rdata_eq : s.rdata = readResult m addr rev n
  flash_eq : s.bridge.flash = m
  toggle : s.lastToggle = s.bridge.tog
  kind : s.bridge.kind = .reference
  script : s.bridge.script = []
  flags : s.diagIe = false ∧ s.diagIw = false

/-- The READ_BYTES request has ended with OK and all its bytes (R184). -/
structure ReadAnswered (m : Memory) (addr len : Word) (rev : Bool) (t : State) : Prop where
  seq : t.seq = Seq.respond.code
  rsp : t.rsp = some { code := .ok, info := .empty, data := readResult m addr rev len.toNat, diagIe := false, diagIw := false }
  flash : t.bridge.flash = m

theorem step_edge (h : At .rdToggle s) (hb : s.bridge.kind ≠ .noAnswer) (hedge : stToggle s.sample ≠ s.lastToggle) :
    step s = .next (s.sampled.timed.edgeSeen s.sample s.sampled.now) :=
  (rdToggleStep s h hb).trans (congrArg _ (if_pos hedge))

theorem step_rdBusy_done (h : At .rdBusy s) (hb : s.bridge.kind ≠ .noAnswer) (hidle : stBusy s.sample = false) :
    step s = .next s.sampled.timed.byteDone :=
  (rdBusyStep s h hb).trans (congrArg _ (if_pos hidle))

theorem accesses_readIssued (s : State) : accesses s.readIssued = accesses s + 1 :=
  (accesses_startWait _ _).trans (accesses_delivered _ _ s)

theorem accesses_polled (s : State) : accesses s.sampled.timed = accesses s + 1 :=
  (accesses_timed _).trans (accesses_sampled s)

theorem State.readIssued_bridge (hm : s.bridge.modelled = true) :
    s.readIssued.bridge = s.bridge.takeRead (s.readAddress.setWidth 21) := if_pos hm

/-- The reference bridge has flipped its toggle and presents the byte at once (R142). -/
theorem State.readIssued_sample (hk : s.bridge.kind = .reference) (hscript : s.bridge.script = []) :
    s.readIssued.sample =
      statusWord (!s.bridge.tog) false (s.bridge.flash.read (s.readAddress.setWidth 21).toNat) := by
  have hbridge := State.readIssued_bridge (modelled_of_reference hk)
  rw [State.sample_reference (by rw [hbridge]; exact hk) (by rw [hbridge]; exact hscript), hbridge,
    Bridge.takeRead_of_flips (hk ▸ nofun)]

theorem State.edgeSeen_readIssued (hk : s.bridge.kind = .reference) (hscript : s.bridge.script = []) :
    s.readIssued.sampled.timed.edgeSeen s.readIssued.sample s.readIssued.sampled.now =
      s.byteArrived s.readIssued.sampled.now s.readIssued.sampled.timed.clock s.readIssued.sampled.timed.trace := by
  have hbridge := State.readIssued_bridge (modelled_of_reference hk)
  rw [State.polled_reference (by rw [hbridge]; exact hk) (by rw [hbridge]; exact hscript), State.edgeSeen,
    State.readIssued_sample hk hscript, stToggle_statusWord, stData_statusWord, State.byteArrived, ← hbridge]
  rfl

/-- On the reference bridge the first sample after the READ command shows its edge and its byte (R142, R183). -/
theorem run_edge (h : AtByte m addr len rev n s) :
    ∃ t0 clock trace, core.run 2 s = .next (s.byteArrived t0 clock trace) ∧
      trace.countP BusEvent.isAccess = accesses s + 2 := by
  obtain ⟨-, hr, hp⟩ := id h.at_rdCmd
  have hbridge := State.readIssued_bridge (modelled_of_reference h.kind)
  have hat : At .rdToggle s.readIssued := ⟨rfl, hr, by rw [hbridge]; exact hp⟩
  have hb : s.readIssued.bridge.kind ≠ .noAnswer := by rw [hbridge]; exact h.kind ▸ nofun
  have hedge : stToggle s.readIssued.sample ≠ s.readIssued.lastToggle := by
    rw [State.readIssued_sample h.kind h.script, stToggle_statusWord, show s.readIssued.lastToggle = s.bridge.tog from h.toggle]
    exact Bool.not_ne_self _
  have hstep := step_edge hat hb hedge
  rw [State.edgeSeen_readIssued h.kind h.script] at hstep
  exact ⟨_, _, _, (core_run_succ 1 (step_rdCmd h.at_rdCmd (h.kind ▸ nofun))).trans (core_run_succ 0 hstep),
    (accesses_polled s.readIssued).trans (congrArg (· + 1) (accesses_readIssued s))⟩

/-- On the reference bridge the sample after the edge shows busy clear (R141, R184). -/
theorem run_byte (h : AtByte m addr len rev n s) :
    ∃ t0 clock trace, core.run 3 s = .next (s.byteArrived t0 clock trace).byteDone ∧
      trace.countP BusEvent.isAccess = accesses s + 3 := by
  obtain ⟨-, hr, hp⟩ := id h.at_rdCmd
  obtain ⟨t0, clock, trace, hrun, hcount⟩ := run_edge h
  let u := s.byteArrived t0 clock trace
  have hk : u.bridge.kind = .reference := h.kind
  have hscript : u.bridge.script = [] := h.script
  have hidle : stBusy u.sample = false := by rw [State.sample_reference hk hscript, stBusy_statusWord]
  have hstep := step_rdBusy_done (s := u) ⟨rfl, hr, hp⟩ (hk ▸ nofun) hidle
  rw [State.polled_reference hk hscript] at hstep
  exact ⟨t0, _, _, (core_run_add 2 1 hrun).trans (core_run_succ 0 hstep),
    (accesses_polled u).trans (congrArg (· + 1) hcount)⟩

theorem accesses_byteDone (s : State) : accesses s.byteDone = accesses s :=
  congrArg (List.countP BusEvent.isAccess) (State.byteDone_move s).trace

/-! ### All bytes -/

theorem readResult_succ (m : Memory) (addr : Word) (rev : Bool) (n : Nat) :
    readResult m addr rev (n + 1) =
      readResult m addr rev n ++ [romIf rev (m.read ((addr + BitVec.ofNat 32 n).setWidth 21).toNat)] := by
  simp only [readResult, List.range_succ, List.map_append, List.map_cons, List.map_nil]

theorem AtByte.i_toNat (h : AtByte m addr len rev n s) (hn : n < len.toNat) : s.i.toNat = n := by
  rw [h.i_eq, BitVec.toNat_ofNat, Nat.mod_eq_of_lt (Nat.lt_trans hn len.isLt)]

/-- The byte that arrives is the next one of the result (R180). -/
theorem AtByte.rdata_append (h : AtByte m addr len rev n s) (t0 : Nat) (clock : Clock) (trace : List BusEvent) :
    (s.byteArrived t0 clock trace).rdata ++
        [romIf (s.byteArrived t0 clock trace).rev (s.byteArrived t0 clock trace).latched] =
      readResult m addr rev (n + 1) := by
  rw [readResult_succ, ← h.rdata_eq, ← h.rev_eq, ← h.flash_eq, ← h.addr_eq, ← h.i_eq]
  rfl

theorem State.byteDone_more (h : s.i.toNat + 1 < s.len.toNat) :
    s.byteDone =
      { s with rdata := s.rdata ++ [romIf s.rev s.latched], i := s.i + 1#32, seq := Seq.rdCmd.code } := if_pos h

theorem State.byteDone_last (h : ¬ s.i.toNat + 1 < s.len.toNat) :
    s.byteDone =
      State.respondOk (s.rdata ++ [romIf s.rev s.latched])
        { s with rdata := s.rdata ++ [romIf s.rev s.latched], i := s.i + 1#32 } := if_neg h

/-- A byte with another one after it leads to the command of that one. -/
theorem AtByte.next (h : AtByte m addr len rev n s) (t0 : Nat) (clock : Clock) (trace : List BusEvent)
    (hmore : n + 1 < len.toNat) : AtByte m addr len rev (n + 1) (s.byteArrived t0 clock trace).byteDone := by
  obtain ⟨-, hr, hp⟩ := h.at_rdCmd
  have htest : s.i.toNat + 1 < s.len.toNat := by rwa [h.i_toNat (Nat.lt_of_succ_lt hmore), h.len_eq]
  rw [State.byteDone_more (s := s.byteArrived t0 clock trace) htest, h.rdata_append]
  exact ⟨⟨rfl, hr, hp⟩, h.addr_eq, h.len_eq, h.rev_eq, (congrArg (· + 1#32) h.i_eq).trans (BitVec.ofNat_add ..).symm, rfl,
    h.flash_eq, (if_neg (h.kind ▸ nofun)).symm, h.kind, h.script, h.flags⟩

/-- The last byte ends the request. -/
theorem AtByte.last (h : AtByte m addr len rev n s) (t0 : Nat) (clock : Clock) (trace : List BusEvent)
    (hlast : n + 1 = len.toNat) : ReadAnswered m addr len rev (s.byteArrived t0 clock trace).byteDone := by
  obtain ⟨hie, hiw⟩ := h.flags
  have htest : ¬ s.i.toNat + 1 < s.len.toNat := by
    rw [h.i_toNat (Nat.lt_of_succ_le hlast.le), h.len_eq]
    exact hlast.not_lt
  rw [State.byteDone_last (s := s.byteArrived t0 clock trace) htest, h.rdata_append, hlast]
  refine ⟨rfl, ?_, h.flash_eq⟩
  simp only [State.respondOk_eq, State.respond_rsp, State.byteArrived, hie, hiw]

/-- From the command of byte `n` with `k` more bytes after it, three steps a byte, each with an access, end the request (R189). -/
theorem run_bytes : ∀ (k : Nat) {n : Nat} {s : State}, AtByte m addr len rev n s → n + (k + 1) = len.toNat →
    ∃ t, core.run (3 * (k + 1)) s = .next t ∧ ReadAnswered m addr len rev t ∧ accesses t = accesses s + 3 * (k + 1)
  | 0, n, s, h, hn => by
    obtain ⟨t0, clock, trace, hrun, hcount⟩ := run_byte h
    exact ⟨_, hrun, h.last t0 clock trace hn, (accesses_byteDone _).trans hcount⟩
  | k + 1, n, s, h, hn => by
    obtain ⟨t0, clock, trace, hrun, hcount⟩ := run_byte h
    obtain ⟨t, ht, hanswered, haccesses⟩ := run_bytes k (h.next t0 clock trace (by omega)) (by omega)
    have hfirst : accesses (s.byteArrived t0 clock trace).byteDone = accesses s + 3 := (accesses_byteDone _).trans hcount
    refine ⟨t, ?_, hanswered, by omega⟩
    rw [show 3 * (k + 1 + 1) = 3 + 3 * (k + 1) by omega, core_run_add _ _ hrun, ht]

/-! ### Acceptance and the seed sample (R180, R181) -/

/-- The state with the operands of a READ_BYTES request latched (R38). -/
def State.latchedRead (addr count : Word) (rev : Bool) (s : State) : State :=
  s.unported.latchOperands
    { kind := kindReadBytes, addr := some addr, len := some count, rev := some rev, tmo := none, wdata := none }

theorem step_readRequest {count : Word} (h : At .idle s)
    (hport : s.host.port = some { emptyReq 1#3 with addr := addr, len := count, reverse := rev })
    (hmax : count.toNat ≤ Config.maxXfer) : step s = .next (s.latchedRead addr count rev).startRead := by
  obtain ⟨hq, hr, -⟩ := id h
  rw [step_of_fetch hr (State.fetch_port h hport)]
  exact State.accept_idle (s := s.unported) State.startRead hq (refuseCount_eq_none.2 hmax)

theorem State.startRead_seeded (hlen : s.len ≠ 0#32) (hseeded : s.toggleSeeded = true) :
    s.startRead = { s with i := 0#32, seq := Seq.rdCmd.code } := (if_neg hlen).trans (if_pos hseeded)

theorem State.startRead_unseeded (hlen : s.len ≠ 0#32) (hseeded : s.toggleSeeded = false) :
    s.startRead = { s with i := 0#32, seq := Seq.rdSeed.code } :=
  (if_neg hlen).trans (if_neg (by rw [hseeded]; exact Bool.false_ne_true))

/-- Acceptance, and the seed sample when no toggle is stored, lead to the command of the first byte with the bridge's toggle
stored. -/
theorem run_readRequest {count : Word} (h : At .idle s)
    (hport : s.host.port = some { emptyReq 1#3 with addr := addr, len := count, reverse := rev })
    (hk : s.bridge.kind = .reference) (hscript : s.bridge.script = [])
    (htoggle : s.toggleSeeded = true → s.lastToggle = s.bridge.tog) (hpos : 0 < count.toNat)
    (hmax : count.toNat ≤ Config.maxXfer) :
    ∃ u, core.run (1 + if s.toggleSeeded then 0 else 1) s = .next u ∧ AtByte s.bridge.flash addr count rev 0 u ∧
      accesses u = accesses s + if s.toggleSeeded then 0 else 1 := by
  have hlen : count ≠ 0#32 := fun e => by rw [e] at hpos; exact absurd hpos (by decide)
  have hstep := step_readRequest h hport hmax
  obtain ⟨-, hr, hp⟩ := h
  cases hseeded : s.toggleSeeded with
  | true =>
    rw [State.startRead_seeded (s := s.latchedRead addr count rev) hlen hseeded] at hstep
    exact ⟨_, core_run_succ 0 hstep,
      ⟨⟨rfl, hr, hp⟩, rfl, rfl, rfl, rfl, rfl, rfl, htoggle hseeded, hk, hscript, rfl, rfl⟩, rfl⟩
  | false =>
    rw [State.startRead_unseeded (s := s.latchedRead addr count rev) hlen hseeded] at hstep
    let v : State := { s.latchedRead addr count rev with i := 0#32, seq := Seq.rdSeed.code }
    have hv : v.bridge.kind = .reference := hk
    have hseed := rdSeedStep v ⟨rfl, hr, hp⟩ (hv ▸ nofun)
    have htog : v.sample.getLsbD 19 = s.bridge.tog :=
      (congrArg stToggle (State.sample_reference hv hscript)).trans (stToggle_statusWord ..)
    rw [State.sampled_reference hv hscript, htog] at hseed
    exact ⟨_, (core_run_succ 1 hstep).trans (core_run_succ 0 hseed),
      ⟨⟨rfl, hr, hp⟩, rfl, rfl, rfl, rfl, rfl, rfl, rfl, hk, hscript, rfl, rfl⟩, accesses_sampled v⟩

end

/-- Settles O50: the request starts at its first byte with the bridge's toggle stored, and its bytes follow. -/
theorem readBytesOnTheReferenceBridge : Obligations.ReadBytesOnTheReferenceBridge := by
  intro addr count rev s h hport hk hscript htoggle hpos hmax seed
  obtain ⟨u, hbegin, hfirst, hseed⟩ := run_readRequest h hport hk hscript htoggle hpos hmax
  obtain ⟨k, hcount⟩ := Nat.exists_eq_add_one.2 hpos
  obtain ⟨t, hrun, hanswered, haccesses⟩ := run_bytes k hfirst ((Nat.zero_add _).trans hcount.symm)
  rw [← hcount] at hrun haccesses
  exact ⟨t, (core_run_add _ _ hbegin).trans hrun, hanswered.seq, hanswered.rsp, by rw [haccesses, hseed], hanswered.flash⟩

end Sys2Proof.Machine

/-! Erasing and programming (R202 to R211): the acceptance of ERASE, and what the five states of ERASE, PAGE_PROGRAM and WRITE
do in one step. -/

namespace Sys2Proof.Machine

open Sys2Proof.Safety

section

variable {s : State}

/-! ### The first step of ERASE (R202) -/

/-- Only an empty region has no block (R200). -/
theorem nblkOf_eq_zero_iff {len : Word} : nblkOf len = 0#32 ↔ len = 0#32 := by
  simp only [← BitVec.toNat_inj, nblkOf_toNat, BitVec.toNat_ofNat]
  omega

theorem State.startErase_of_aligned (ha : s.addr.toNat % 65536 = 0) :
    s.startErase = { s with
      nblk := nblkOf s.len, k := 0#32
      seq := if s.len = 0#32 then Seq.respond.code else Seq.erCmd.code
      rsp := if s.len = 0#32 then some { code := .ok, info := .empty, data := [], diagIe := s.diagIe, diagIw := s.diagIw }
        else s.rsp } := by
  have halign : sectorAligned s.addr = true := sectorAligned_iff.2 ha
  by_cases hlen : s.len = 0#32
  · rw [State.startErase_of_empty halign (nblkOf_eq_zero_iff.2 hlen), if_pos hlen, if_pos hlen]
    rfl
  · rw [State.startErase_of_blocks halign (mt nblkOf_eq_zero_iff.1 hlen), if_neg hlen, if_neg hlen]

theorem State.startErase_of_unaligned (ha : s.addr.toNat % 65536 ≠ 0) :
    s.startErase = s.respond .alignmentError (.alignment .eraseAddrUnaligned s.addr s.len) [] :=
  if_neg (mt sectorAligned_iff.1 ha)

end

/-- Settles O21: ERASE is accepted in IDLE, and its first step tests the alignment before it counts the blocks. -/
theorem eraseIsAcceptedOrRaisesAlignment : Obligations.EraseIsAcceptedOrRaisesAlignment := by
  intro addr size s hs
  refine ⟨_, State.accept_idle _ hs rfl, fun ha => ?_, fun ha => ?_⟩
  · rw [State.startErase_of_aligned ha]
    rfl
  · rw [State.startErase_of_unaligned ha]
    rfl

section

variable {s : State}

/-! ### The states that write a command word (R203, R208, R209) -/

/-- A command word that is one register write has the effect of executing the instruction it decodes to. -/
theorem exec_decodeCmd_of_issue {v : Word} {react : Bridge → Bridge} (hi : s.issue v = s.regWrite v react)
    (hb : s.busAnswers = true) : exec (decodeCmd v) s = .next (s.delivered v react) :=
  hi.trans (State.regWrite_of_busAnswers hb)

theorem State.loadDone_eq (s : State) :
    s.loadDone = { s with
      j := s.j + 1#9, seq := if s.j + 1#9 = s.plen then Seq.ppCommit.code else Seq.ppLoad.code } := by
  unfold State.loadDone
  simp only
  split_ifs <;> rfl

end

/-- Settles O33: the word decodes to SECTOR_ERASE at the sum's low 21 bits, and the wait starts after its delivery. -/
theorem erCmdStep : Obligations.ErCmdStep := by
  intro s h hb
  have hanswers : s.busAnswers = true := busAnswers_iff.2 hb
  have hexec := exec_decodeCmd_of_issue (State.issue_sectorErase s.blockAddress 0#8 s) hanswers
  rw [decodeCmd_cmd_sectorErase] at hexec
  exact ⟨_, hexec, rfl, step_erase h hanswers⟩

/-- Settles O35: the word decodes to the load of the byte at the index, through the ROM as R208 says. -/
theorem ppLoadStep : Obligations.PpLoadStep := by
  intro s w h hb hw
  have hanswers : s.busAnswers = true := busAnswers_iff.2 hb
  obtain ⟨hi, rfl⟩ := List.getElem?_eq_some_iff.1 hw
  rw [← romIf_loadReversed]
  have hexec := exec_decodeCmd_of_issue (State.issue_pageProgram 0#32 (romIf s.loadReversed s.wdata[s.loadIndex]) s) hanswers
  rw [decodeCmd_cmd_pageProgram] at hexec
  exact ⟨_, hexec, rfl, (step_load h hanswers hi).trans (congrArg _ (State.loadDone_eq _))⟩

/-- Settles O36: the word decodes to WRITE at the sum's low 21 bits, and the wait starts after its delivery. -/
theorem ppCommitStep : Obligations.PpCommitStep := by
  intro s h hb
  have hanswers : s.busAnswers = true := busAnswers_iff.2 hb
  have hexec := exec_decodeCmd_of_issue (State.issue_write s.commitAddress 0#8 s) hanswers
  rw [decodeCmd_cmd_write] at hexec
  exact ⟨_, hexec, rfl, step_commit h hanswers⟩

section

variable {s : State}

/-! ### The busy waits (R204, R205, R210, R211) -/

/-- The bridge after a timed-out wait differs in its flash and in the counter of free flash bytes alone. -/
theorem State.unsettledBridge_frame (w : Wait) (s : State) :
    s.unsettledBridge w = { s.bridge with
      flash := (s.unsettledBridge w).flash, flashDraws := (s.unsettledBridge w).flashDraws } := by
  obtain ⟨flash, draws, e, -⟩ := s.unsettledBridge_eq w
  rw [e]

/-- The oracle's flash is hidden, so a timed-out wait leaves nothing open in the state (R30, R136). -/
theorem State.unsettledBridge_of_oracle (w : Wait) (hk : s.bridge.kind = .oracle) :
    (s.unsettledBridge w).flash = s.bridge.flash ∧ (s.unsettledBridge w).flashDraws = s.bridge.flashDraws := by
  have hsame : s.unsettledBridge w = s.bridge := if_neg fun hm => (Bridge.modelled_iff.1 hm).1 hk
  rw [hsame]
  exact ⟨rfl, rfl⟩

/-- A poll on a bridge that answers, as one equation (R152, U10). -/
theorem State.poll_of_answers {cond : Word → Bool} {limit : Nat} {w : Wait} {pos : Word}
    {success : Word → Nat → State → State} (hb : s.bridge.kind ≠ .noAnswer) :
    s.poll cond limit w pos success = .next (
      if cond s.sample = true then success s.sample s.sampled.now s.sampled.timed
      else if limit ≤ s.sampled.now - s.t0 then
        (s.sampled.timed.leaveUnsettled w).respond .timeout (.timeout w (s.sampled.now - s.t0) pos) []
      else s.sampled.timed) := by
  simp only [State.poll, if_pos (busAnswers_iff.2 hb), State.raiseTimeout_eq]
  split_ifs <;> rfl

theorem State.blockAddress_masked (s : State) :
    (s.blockAddress.setWidth 21).toNat = (s.addr + 65536#32 * s.k).toNat % 2 ^ 21 := BitVec.toNat_setWidth _ _

end

/-- Settles O34: the poll step with ER_BUSY's parameters; its success is the end of a block, and its timeout leaves the block's
sector open. -/
theorem erBusyStep : Obligations.ErBusyStep := by
  intro s h hb
  refine ⟨s.sampled.timed.unsettledBridge .eraseBusy, State.unsettledBridge_frame _ _,
    State.unsettledBridge_of_oracle (s := s.sampled.timed) _, fun x hx => ?_, ?_⟩
  · rw [← State.blockAddress_masked] at hx
    exact State.read_unsettledBridge_erase (s := s.sampled.timed) hx
  · rw [step_of_at h nofun]
    simp only [stepSeq, stepErBusy, State.poll_of_answers hb, Bool.not_eq_true']
    rfl

/-- Settles O37: the poll step with PP_BUSY's parameters; its success is the end of a page, and its timeout leaves the page's
span open. -/
theorem ppBusyStep : Obligations.PpBusyStep := by
  intro s h hb
  refine ⟨s.sampled.timed.unsettledBridge .programBusy, State.unsettledBridge_frame _ _,
    State.unsettledBridge_of_oracle (s := s.sampled.timed) _, fun x hx => ?_, ?_⟩
  · rw [← State.commitAddress_masked] at hx
    exact State.read_unsettledBridge_program (s := s.sampled.timed) hx
  · rw [step_of_at h nofun]
    simp only [stepSeq, stepPpBusy, State.poll_of_answers hb, Bool.not_eq_true']
    rfl

end Sys2Proof.Machine

/-! The host agent's operations (R240 to R251): the start of an operation, the chunks of WRITE_RPD and READ_RPD, the records of
a verify read, and the end of a session. -/

namespace Sys2Proof.Machine

open Sys2Proof.Safety

section

variable {s : State} {h : HostState}

/-! ### The moves of the host in IDLE -/

theorem step_start (hs : At .idle s) (hport : s.host.port = none) (hp : s.host.phase = .start) :
    step s = .next s.startOperation := by
  rw [step_idle hs hport]
  simp only [State.hostMove, hp]

theorem step_chunk (hs : At .idle s) (hport : s.host.port = none) (hp : s.host.phase = .chunk) :
    step s = .next { s with host := s.host.chunkMove } := by
  rw [step_idle hs hport]
  simp only [State.hostMove, hp]

/-- The host at the start of its operation: the position at zero, and for READ_RPD an empty destination (log 19). -/
def HostState.rewound (h : HostState) : HostState :=
  { h with pos := 0, dest := if h.op = HostOp.readRpd then [] else h.dest }

/-- Too many bytes fail WRITE_RPD before anything else (R242). -/
theorem State.startOperation_of_overCapacity (hop : s.host.op = .writeRpd) (hlen : Config.maxRpdBytes < s.host.fileLen) :
    s.startOperation = { s with host := s.host.rewound.fail .capacity } := if_pos ⟨hop, hlen⟩

/-- An operation outside a session resets the block and presents PREWAIT (R240, R293). -/
theorem State.startOperation_of_noSession (hfits : ¬ (s.host.op = .writeRpd ∧ Config.maxRpdBytes < s.host.fileLen))
    (hsession : s.host.session = false) :
    s.startOperation = { s.blockReset with
      host := { s.host.rewound with session := true }.present HostState.prewaitReq .prewaiting } :=
  (if_neg hfits).trans (if_neg (Bool.eq_false_iff.1 hsession))

/-! ### The moves at a chunk (R241, R243, R246) -/

/-- Past the last byte the operation is done. -/
theorem HostState.chunkMove_of_end (hend : h.total ≤ h.pos) : h.chunkMove = h.finish := if_pos hend

theorem HostState.chunkMove_write (hop : h.op = .writeRpd) (hmore : h.pos < h.total) (hfull : h.chunk.length = h.chunkLen) :
    h.chunkMove = h.present h.writeReq .writing := by
  simp only [chunkMove, if_neg hmore.not_ge, hop, if_neg hfull.not_lt]

theorem HostState.chunkMove_shortRead (hop : h.op = .writeRpd) (hmore : h.pos < h.total)
    (hshort : h.chunk.length < h.chunkLen) : h.chunkMove = h.fail .io := by
  simp only [chunkMove, if_neg hmore.not_ge, hop, if_pos hshort]

theorem HostState.chunkMove_read (hop : h.op = .readRpd) (hmore : h.pos < h.total) :
    h.chunkMove = h.present h.readReq .reading := by
  simp only [chunkMove, if_neg hmore.not_ge, hop]

theorem HostState.total_write (hop : h.op = .writeRpd) : h.total = h.fileLen := by simp only [total, hop]

theorem HostState.total_read (hop : h.op = .readRpd) : h.total = 950005 := by simp only [total, hop, Config.maxRpdBytes]

theorem HostState.chunkLen_write (hop : h.op = .writeRpd) : h.chunkLen = min 65536 (h.fileLen - h.pos) :=
  congrArg (fun n => min 65536 (n - h.pos)) (total_write hop)

theorem HostState.chunkLen_read (hop : h.op = .readRpd) : h.chunkLen = min 65536 (950005 - h.pos) :=
  congrArg (fun n => min 65536 (n - h.pos)) (total_read hop)

/-- A chunk that is read in full is written with the chunk's length (R243). -/
theorem HostState.writeReq_of_full (hfull : h.chunk.length = h.chunkLen) :
    h.writeReq = { emptyReq 4#3 with
      addr := h.chunkAddress, len := BitVec.ofNat 32 h.chunkLen, reverse := true, data := h.chunk } := by
  rw [writeReq, hfull]

/-- Both images start on a 64 KiB boundary (R70), so their chunks do too. -/
theorem Image.chunk_aligned (image : Image) {pos : Nat} (hpos : pos % 65536 = 0) :
    (image.base + BitVec.ofNat 32 pos).toNat % 65536 = 0 := by
  have hbase : image.base.toNat % 65536 = 0 := by cases image <;> rfl
  rw [BitVec.toNat_add, BitVec.toNat_ofNat]
  omega

end

/-- Settles O53: the two first branches of the start of an operation. -/
theorem theHostChecksCapacityThenPrewaits : Obligations.TheHostChecksCapacityThenPrewaits := by
  refine fun s hs hport hp => ⟨fun hop hlen => ⟨_, step_start hs hport hp, ?_⟩,
    fun hfits hsession => ⟨_, step_start hs hport hp, ?_⟩⟩
  · rw [State.startOperation_of_overCapacity hop hlen]
    exact ⟨rfl, hport, rfl, rfl⟩
  · rw [State.startOperation_of_noSession hfits hsession]
    exact ⟨rfl, rfl, rfl, rfl, rfl, rfl, rfl, rfl⟩

/-- Settles O54: the three ways a chunk of WRITE_RPD can go. -/
theorem theHostWritesChunkByChunk : Obligations.TheHostWritesChunkByChunk := by
  intro s hs hport hp hop
  have htotal := HostState.total_write hop
  simp only [← HostState.chunkLen_write hop]
  refine ⟨fun hmore hfull => ⟨_, step_chunk hs hport hp, ?_⟩, fun hmore hshort => ⟨_, step_chunk hs hport hp, ?_⟩,
    fun hend => ⟨_, step_chunk hs hport hp, ?_⟩⟩
  · rw [HostState.chunkMove_write hop (htotal ▸ hmore) hfull]
    exact ⟨rfl, congrArg some (HostState.writeReq_of_full hfull), s.host.image.chunk_aligned⟩
  · rw [HostState.chunkMove_shortRead hop (htotal ▸ hmore) hshort]
    exact ⟨rfl, hport⟩
  · rw [HostState.chunkMove_of_end (htotal ▸ hend)]
    refine ⟨rfl, hport, ?_⟩
    simp only [HostState.finish, hop]

section

variable {pos base j i : Nat} {x y : Byte} {xs ys : List Byte} {m : Mismatch}

/-! ### The records of a verify read (R244) -/

/-- `m` records a difference of the lists at index `i`, where index 0 of them is offset `j` of the chunk. -/
def RecordsAt (pos base j : Nat) (xs ys : List Byte) (m : Mismatch) (i : Nat) : Prop :=
  xs[i]? = some m.expected ∧ ys[i]? = some m.actual ∧ m.expected ≠ m.actual ∧ m.fileOffset = pos + (j + i) ∧
    m.flashAddress = base + pos + (j + i)

theorem recordsAt_zero : RecordsAt pos base j (x :: xs) (y :: ys) m 0 ↔
    x ≠ y ∧ m = { fileOffset := pos + j, flashAddress := base + pos + j, expected := x, actual := y } := by
  obtain ⟨fileOffset, flashAddress, expected, actual⟩ := m
  simp only [RecordsAt, List.getElem?_cons_zero, Option.some.injEq, Nat.add_zero, Mismatch.mk.injEq]
  constructor
  · rintro ⟨rfl, rfl, hne, rfl, rfl⟩
    exact ⟨hne, rfl, rfl, rfl, rfl⟩
  · rintro ⟨hne, rfl, rfl, rfl, rfl⟩
    exact ⟨rfl, rfl, hne, rfl, rfl⟩

theorem recordsAt_succ :
    RecordsAt pos base j (x :: xs) (y :: ys) m (i + 1) ↔ RecordsAt pos base (j + 1) xs ys m i := by
  simp only [RecordsAt, List.getElem?_cons_succ, show j + (i + 1) = j + 1 + i by omega]

theorem mismatchesFrom_cons_of_ne (hne : x ≠ y) : mismatchesFrom pos base j (x :: xs) (y :: ys) =
    { fileOffset := pos + j, flashAddress := base + pos + j, expected := x, actual := y } ::
      mismatchesFrom pos base (j + 1) xs ys := if_neg hne

/-- The records are those of the differences, by induction on both lists: the first bytes, or an index of the rest. -/
theorem mem_mismatchesFrom_iff : ∀ (xs ys : List Byte) (j : Nat),
    m ∈ mismatchesFrom pos base j xs ys ↔ ∃ i, RecordsAt pos base j xs ys m i
  | [], ys, j => by simp [mismatchesFrom, RecordsAt]
  | x :: xs, [], j => by simp [mismatchesFrom, RecordsAt]
  | x :: xs, y :: ys, j => by
    rw [← Nat.or_exists_add_one, recordsAt_zero]
    simp only [recordsAt_succ, ← mem_mismatchesFrom_iff xs ys (j + 1)]
    by_cases hxy : x = y
    · simp [mismatchesFrom, hxy]
    · rw [mismatchesFrom_cons_of_ne hxy, List.mem_cons, and_iff_right hxy]

theorem HostState.mem_mismatches_iff {h : HostState} {data : List Byte} :
    m ∈ h.mismatches data ↔ ∃ i, RecordsAt h.pos h.image.base.toNat 0 h.chunk data m i := mem_mismatchesFrom_iff _ _ 0

end

/-- Settles O55: the records of a verify read are those from offset 0 on. -/
theorem verifyRecordsEveryMismatch : Obligations.VerifyRecordsEveryMismatch := by
  intro h data m _
  simp only [HostState.mem_mismatches_iff, RecordsAt, Nat.zero_add]

section

variable {h : HostState} {r : Response} {data : List Byte}

/-! ### The response to a chunk of READ_RPD (R246, R248) -/

theorem HostState.store_of_fits (hfits : ∀ room, h.destRoom = some room → data.length ≤ room) :
    h.store data =
      { h with dest := h.dest ++ data, destRoom := h.destRoom.map (· - data.length) }.nextChunk := by
  cases hroom : h.destRoom with
  | none => simp only [store, hroom, Option.map_none]
  | some room => simp only [store, hroom, if_pos (hfits room hroom), Option.map_some]

theorem HostState.store_of_full {room : Nat} (hroom : h.destRoom = some room) (hfull : room < data.length) :
    h.store data = h.fail .io := by
  simp only [store, hroom, if_neg hfull.not_ge]

theorem HostState.receive_read (hok : r.code = .ok) (hp : h.phase = .reading) :
    h.receive r = (h.noted r).store r.data := by
  simp only [receive_ok hok, onOk, noted, hp]

theorem HostState.receive_error (herr : r.code ≠ .ok) : h.receive r = (h.noted r).onError r := if_neg herr

/-- An error response fails a read; only a Timeout's end of the session is done beside it. -/
theorem HostState.receive_read_error (herr : r.code ≠ .ok) (hp : h.phase = .reading) :
    h.receive r =
      (if r.code = .timeout then (h.noted r).endSession else h.noted r).fail (.response r) := by
  simp only [receive_error herr, onError, noted, hp]

end

/-- Settles O57: the two moves at a chunk of READ_RPD, and the three outcomes of its response. -/
theorem theHostReadsChunkByChunk : Obligations.TheHostReadsChunkByChunk := by
  intro s hop
  have htotal := HostState.total_read hop
  simp only [← HostState.chunkLen_read hop]
  refine ⟨fun hs hport hp => ⟨fun hmore => ⟨_, step_chunk hs hport hp, ?_⟩, fun hend => ⟨_, step_chunk hs hport hp, ?_⟩⟩,
    fun r hs ht hr hp => ⟨fun hok hfits => ⟨_, step_respond_taken hs ht hr, ?_⟩,
      fun hok room hroom hfull => ⟨_, step_respond_taken hs ht hr, ?_⟩, fun herr => ⟨_, step_respond_taken hs ht hr, ?_⟩⟩⟩
  · rw [HostState.chunkMove_read hop (htotal ▸ hmore)]
    exact ⟨rfl, rfl⟩
  · rw [HostState.chunkMove_of_end (htotal ▸ hend)]
    refine ⟨rfl, hport, ?_⟩
    simp only [HostState.finish, hop, Config.maxRpdBytes]
  · simp only [HostState.receive_read hok hp, HostState.store_of_fits (h := s.host.noted r) hfits]
    exact ⟨rfl, rfl, rfl, rfl⟩
  · simp only [HostState.receive_read hok hp, HostState.store_of_full (h := s.host.noted r) hroom hfull]
    exact ⟨rfl, rfl⟩
  · simp only [HostState.receive_read_error herr hp]
    split_ifs <;> exact ⟨rfl, rfl⟩

section

variable {h : HostState} {r : Response}

/-! ### A Timeout response (R250, R251) -/

/-- The phases of an operation under way: it has started, and it has not ended. -/
def HostPhase.underWay : List HostPhase := [.prewaiting, .chunk, .writing, .readback, .verifying, .reading]

theorem HostPhase.ended_of_not_underWay {p : HostPhase} (hp : p ∉ underWay) (hstart : p ≠ .start) :
    p = .idle ∨ p = .done ∨ ∃ why, p = .failed why := by
  cases p with
  | idle => exact .inl rfl
  | done => exact .inr (.inl rfl)
  | failed why => exact .inr (.inr ⟨why, rfl⟩)
  | start => exact absurd rfl hstart
  | prewaiting | chunk | writing | readback | verifying | reading => exact absurd (by decide) hp

/-- A Timeout fails an operation under way, and ends the session in every phase. -/
theorem HostState.receive_timeout (ht : r.code = .timeout) :
    h.receive r =
      if h.phase ∈ HostPhase.underWay then (h.noted r).endSession.fail (.response r) else (h.noted r).endSession := by
  rw [receive_error (ht ▸ nofun)]
  simp only [onError, if_pos ht]
  cases hp : h.phase with
  | idle | start | done | failed => simp [noted, hp, HostPhase.underWay]
  | prewaiting | chunk | writing | readback | verifying | reading => simp [noted, hp, HostPhase.underWay]

end

/-- Settles O56: the Timeout leaves the host where it has no move, unless an operation waits to start. -/
theorem aTimeoutEndsTheSession : Obligations.ATimeoutEndsTheSession := by
  intro s r hs ht hr hcode
  refine ⟨_, step_respond_taken hs ht hr, ?_⟩
  obtain ⟨-, hline, hposted⟩ := hs
  rw [HostState.receive_timeout hcode]
  by_cases hp : s.host.phase ∈ HostPhase.underWay
  · rw [if_pos hp]
    refine ⟨rfl, rfl, fun _ => rfl, fun hstart => ?_, fun _ =>
      idleWithoutARequestDoesNothing _ ⟨rfl, hline, hposted⟩ rfl (.inr (.inr ⟨_, rfl⟩))⟩
    rw [hstart] at hp
    exact absurd hp (by decide)
  · rw [if_neg hp]
    exact ⟨rfl, rfl, fun h => absurd h hp, id, fun hstart =>
      idleWithoutARequestDoesNothing _ ⟨rfl, hline, hposted⟩ rfl (HostPhase.ended_of_not_underWay hp hstart)⟩

end Sys2Proof.Machine

/-! A bus whose accesses never complete (R274): the write, the poll and the seed sample are stuck, and with them every command
word and every sequencer state that makes an access. -/

namespace Sys2Proof.Machine

open Sys2Proof.Safety

section

@[simp] theorem Result.andThen_fault (e : Fault) (f : State → Result) : Result.andThen (.fault e) f = .fault e := rfl

variable {s : State}

theorem not_busAnswers_of_noAnswer (h : s.bridge.kind = .noAnswer) : ¬ s.busAnswers = true :=
  fun hb => busAnswers_iff.1 hb h

theorem State.regWrite_stuck (v : Word) (react : Bridge → Bridge) (h : s.bridge.kind = .noAnswer) :
    s.regWrite v react = .fault .accessNeverCompletes := if_neg (not_busAnswers_of_noAnswer h)

theorem State.poll_stuck (cond : Word → Bool) (limit : Nat) (w : Wait) (pos : Word) (success : Word → Nat → State → State)
    (h : s.bridge.kind = .noAnswer) : s.poll cond limit w pos success = .fault .accessNeverCompletes :=
  if_neg (not_busAnswers_of_noAnswer h)

/-- Whatever a word's operation, its meaning is the delivery of a word. -/
theorem State.issue_stuck (v : Word) (h : s.bridge.kind = .noAnswer) : s.issue v = .fault .accessNeverCompletes := by
  rw [State.issue]
  unfold decodeCmd
  split <;> simp only [exec, execRead, execWrite, execSectorErase, execReadStatus, execPageProgram, execReserved5,
    execReserved6, execReserved7, State.regWrite_stuck _ _ h]

/-- The access comes before the reading of the time base (R35), so the wait does not start. -/
theorem State.issueAndWait_stuck (v : Word) (q : Seq) (h : s.bridge.kind = .noAnswer) :
    s.issueAndWait v q = .fault .accessNeverCompletes := by
  rw [State.issueAndWait, State.issue_stuck v h, Result.andThen_fault]

/-- A load at an index inside the data is stuck at its delivery; at another index the step has no byte to write (log 14). -/
theorem stepPpLoad_stuck (h : s.bridge.kind = .noAnswer) (hload : s.loadIndex < s.wdata.length) :
    stepPpLoad s = .fault .accessNeverCompletes := by
  rw [stepPpLoad, List.getElem?_eq_getElem hload]
  simp only [State.issue_stuck _ h, Result.andThen_fault]

/-- Every state but IDLE and RESPOND makes its access first. -/
theorem stepSeq_stuck {q : Seq} (h : s.bridge.kind = .noAnswer) (hidle : q ≠ .idle) (hrespond : q ≠ .respond)
    (hload : q = .ppLoad → s.loadIndex < s.wdata.length) : stepSeq q s = .fault .accessNeverCompletes := by
  cases q with
  | idle => exact absurd rfl hidle
  | respond => exact absurd rfl hrespond
  | rdSeed => exact if_neg (not_busAnswers_of_noAnswer h)
  | awPoll | rdToggle | rdBusy | erBusy | ppBusy =>
    simp only [stepSeq, stepAwPoll, stepRdToggle, stepRdBusy, stepErBusy, stepPpBusy, State.poll_stuck _ _ _ _ _ h]
  | rdCmd | erCmd | ppCommit => exact State.issueAndWait_stuck _ _ h
  | ppLoad => exact stepPpLoad_stuck h (hload rfl)

end

/-- Settles O18: a command word is stuck at its delivery, and a sequencer state at its sample or at its command word. -/
theorem unansweredAccessesAreStuck : Obligations.UnansweredAccessesAreStuck :=
  ⟨fun w _ h => State.issue_stuck w h, fun _ _ hs h hidle hrespond hload =>
    (step_of_at hs hidle).trans (stepSeq_stuck h hidle hrespond hload)⟩

end Sys2Proof.Machine

/-! What reset sets and leaves alone (R290, R291), and how a request ends OK (R302): without a bus event at its acceptance, or on
a sample that shows the bridge not busy. -/

namespace Sys2Proof.Machine

open Sys2Proof.Safety

section

variable {s t : State} {r : Response}

/-! ### Reset -/

/-- The reset state is what a reset of the block makes of itself, so facts about `blockReset` hold of it too. -/
theorem State.reset_blockReset : State.reset.blockReset = State.reset := rfl

/-- The reset line comes before anything else in a step (log 12). -/
theorem step_of_resetLine (h : s.host.resetLine = true) : step s = .next s.resetByLine := if_pos h

/-! ### The end of a request -/

/-- Of the steps that answer OK, an acceptance that ends the request at once leaves the record as it was, and the others are
the successes of the four poll states that wait for busy = 0. -/
theorem StepCase.ok_cases (h : StepCase s t) (hs : s.rsp = none) (hp : s.bridge.posted = none) (hr : t.rsp = some r)
    (hok : r.code = .ok) :
    t.trace = s.trace ∨ t.trace = s.sampled.timed.trace ∧ stBusy s.sample = false := by
  have unanswered {P : Prop} (ht : t.rsp = none) : P := nomatch ht.symm.trans hr
  cases h with
  | command _ _ _ _ hposted => exact nomatch hp.symm.trans hposted
  | timeout => cases hr; exact nomatch hok
  | await | again | seed | readCmd | edge | eraseCmd | commit | held => exact unanswered hs
  | load => exact unanswered ((State.loadDone_rsp _).trans hs)
  | reset | taken => exact unanswered rfl
  | host => exact unanswered (State.hostMove_rsp hs)
  | read => exact .inl (State.startRead_move _).trace
  | erase => exact .inl (State.startErase_move _).trace
  | program => exact .inl (State.startProgram_move _).trace
  | write => exact .inl (State.startWrite_move _).trace
  | awaitDone _ _ hbusy => exact .inr ⟨rfl, hbusy⟩
  | byteDone _ _ hbusy => exact .inr ⟨(State.byteDone_move _).trace, hbusy⟩
  | blockDone _ _ hbusy => exact .inr ⟨(State.blockDone_move _).trace, hbusy⟩
  | pageDone _ _ hbusy => exact .inr ⟨(State.pageDone_move _).trace, hbusy⟩

end

/-- Settles O7: both states are a reset of the block, of some state, whose registers and frame are known. -/
theorem resetSetsTheStatedRegisters : Obligations.ResetSetsTheStatedRegisters := by
  refine ⟨fun s h => ?_, fun s => ⟨s.blockReset_bridge, s.blockReset_trace⟩⟩
  obtain ⟨u, rfl⟩ : ∃ u : State, s = u.blockReset :=
    h.elim (fun hreset => ⟨State.reset, hreset.trans State.reset_blockReset.symm⟩) id
  simp

/-- Settles O8: with the line on, the step is the reset by line, a reset of the block and of the host's own operation. -/
theorem resetLineAbandonsTheRequest : Obligations.ResetLineAbandonsTheRequest :=
  fun s h => ⟨s.resetByLine, step_of_resetLine h, by simp [State.resetByLine]⟩

/-- Settles O45: an OK end without an access adds nothing to the record, and one on a sample adds that sample, which shows
busy = 0, and the reading of the time after it (R152). -/
theorem anOkEndShowsNotBusy : Obligations.AnOkEndShowsNotBusy := by
  intro s t r es hs hp hx hr hok hadd
  obtain htrace | ⟨htrace, hbusy⟩ := (step_cases hx).ok_cases hs hp hr hok
  · exact .inl (hadd.unique htrace)
  · exact .inr ⟨s.sampled.now, Config.regAddr, s.sample, hadd.unique htrace, hbusy⟩

end Sys2Proof.Machine
